-- ==== Sys2Proof/Word.lean ====
section
/-! DEFINITION. The word types of the machine (`00_scope.md` R5, R6) and their zero extensions.
Every value is unsigned; nothing is sign-extended (R6). -/

namespace Sys2Proof

/-- A memory byte, a V register, a timer, SP: 8 bits (R5 `XLEN`, `SP_WIDTH`). -/
abbrev Byte := BitVec 8

/-- PC, I, a stack entry, FINFO, an instruction word: 16 bits (R5). -/
abbrev Word := BitVec 16

/-- The immediate `nnn`: 12 bits (R61). -/
abbrev Addr12 := BitVec 12

/-- The index of one of the 16 general registers, also WAITX (R10, R23). -/
abbrev Reg := Fin 16

/-- A logical key code 0x0..0xF (R21, R171). -/
abbrev Key := Fin 16

/-- `zext_16` of a byte (R6). -/
def zextByte (b : Byte) : Word := b.setWidth 16

/-- `zext_16` of the immediate `nnn` (R63). -/
def zextAddr (a : Addr12) : Word := a.setWidth 16

end Sys2Proof
end

