-- ==== Sys2Proof/Config.lean ====
section
/-! DEFINITION. The implementation parameters of `00_scope.md` R5 and the one free value of the
machine, the random byte. `TICK_PERIOD` is no parameter of the model: no rule depends on it
(R168; log 18). -/

namespace Sys2Proof.Config

/-- `MEM_SIZE`: valid addresses are 0x000..0xFFF (R5, R40). -/
def memSize : Nat := 4096

/-- `RESET_PC` (R5, R14, R191). -/
def resetPc : Word := 0x200

/-- `PROG_BASE` (R5, R193). -/
def progBase : Nat := 0x200

/-- `PROG_MAX`: the largest program image (R5, R193). -/
def progMax : Nat := 3584

/-- `STACK_DEPTH` (R5, R16). -/
def stackDepth : Nat := 16

/-- `FONT_SIZE`; `FONT_BASE` is 0 (R5, R192). -/
def fontSize : Nat := 80

/-- `GLYPH_SIZE` (R5, R192). -/
def glyphSize : Nat := 5

/-- `FONTSET`, digits 0 to 7: the spec's default table (R192). PRESUMED: the bytes are general
knowledge, not in the source (log 4). Unsafe for claims about what a glyph looks like. -/
def fontsetLow : List Byte :=
  [0xF0, 0x90, 0x90, 0x90, 0xF0] ++ [0x20, 0x60, 0x20, 0x20, 0x70] ++
  [0xF0, 0x10, 0xF0, 0x80, 0xF0] ++ [0xF0, 0x10, 0xF0, 0x10, 0xF0] ++
  [0x90, 0x90, 0xF0, 0x10, 0x10] ++ [0xF0, 0x80, 0xF0, 0x10, 0xF0] ++
  [0xF0, 0x80, 0xF0, 0x90, 0xF0] ++ [0xF0, 0x10, 0x20, 0x40, 0x40]

/-- `FONTSET`, digits 8 to F (R192; log 4). -/
def fontsetHigh : List Byte :=
  [0xF0, 0x90, 0xF0, 0x90, 0xF0] ++ [0xF0, 0x90, 0xF0, 0x10, 0xF0] ++
  [0xF0, 0x90, 0xF0, 0x90, 0x90] ++ [0xE0, 0x90, 0xE0, 0x90, 0xE0] ++
  [0xF0, 0x80, 0x80, 0x80, 0xF0] ++ [0xE0, 0x90, 0x90, 0x90, 0xE0] ++
  [0xF0, 0x80, 0xF0, 0x80, 0xF0] ++ [0xF0, 0x80, 0xF0, 0x80, 0x80]

/-- `FONTSET`: the 80 glyph bytes that Reset writes to 0x000..0x04F (R192; log 4). -/
def fontset : List Byte := fontsetLow ++ fontsetHigh

/-- The random input `rand` of the `k`-th draw (R174): a FREE VALUE, under no law. It has no body,
so a claim about it holds for every sequence of draws (log 2). -/
opaque randomByte : Nat → Byte

end Sys2Proof.Config
end

