-- ==== Sys2Proof/Syntax.lean ====
section
/-! DEFINITION. The instructions: one constructor per row of `spec/opcode_table.json`, in the
table's order, and the opcode map of `30_encoding.md` R65 as data. -/

namespace Sys2Proof

/-- The 36 instructions (R65). Operands are decoded: register numbers are `Reg`, the sprite height
is a number 0..15. The two shifts keep their ignored y field (R68), and the catch-all keeps its
word, so that no bit of an encoding is lost (log 16). -/
inductive Instr where
  | nop
  | cls
  | ret
  | jp (nnn : Addr12)
  | call (nnn : Addr12)
  | seImm (x : Reg) (kk : Byte)
  | sneImm (x : Reg) (kk : Byte)
  | seReg (x y : Reg)
  | ldImm (x : Reg) (kk : Byte)
  | addImm (x : Reg) (kk : Byte)
  | ldReg (x y : Reg)
  | orReg (x y : Reg)
  | andReg (x y : Reg)
  | xorReg (x y : Reg)
  | addReg (x y : Reg)
  | subReg (x y : Reg)
  | shr (x y : Reg)
  | subnReg (x y : Reg)
  | shl (x y : Reg)
  | sneReg (x y : Reg)
  | ldI (nnn : Addr12)
  | jpV0 (nnn : Addr12)
  | rnd (x : Reg) (kk : Byte)
  | drw (x y : Reg) (n : Fin 16)
  | skp (x : Reg)
  | sknp (x : Reg)
  | ldVxDt (x : Reg)
  | ldVxK (x : Reg)
  | ldDtVx (x : Reg)
  | ldStVx (x : Reg)
  | addI (x : Reg)
  | ldF (x : Reg)
  | ldB (x : Reg)
  | stRegs (x : Reg)
  | ldRegs (x : Reg)
  | unrec (w : Word)
  deriving DecidableEq, Repr

/-- The number of an instruction's row in the opcode map (R65, column `#`). -/
def Instr.row : Instr → Nat
  | .nop => 1
  | .cls => 2
  | .ret => 3
  | .jp _ => 4
  | .call _ => 5
  | .seImm _ _ => 6
  | .sneImm _ _ => 7
  | .seReg _ _ => 8
  | .ldImm _ _ => 9
  | .addImm _ _ => 10
  | .ldReg _ _ => 11
  | .orReg _ _ => 12
  | .andReg _ _ => 13
  | .xorReg _ _ => 14
  | .addReg _ _ => 15
  | .subReg _ _ => 16
  | .shr _ _ => 17
  | .subnReg _ _ => 18
  | .shl _ _ => 19
  | .sneReg _ _ => 20
  | .ldI _ => 21
  | .jpV0 _ => 22
  | .rnd _ _ => 23
  | .drw _ _ _ => 24
  | .skp _ => 25
  | .sknp _ => 26
  | .ldVxDt _ => 27
  | .ldVxK _ => 28
  | .ldDtVx _ => 29
  | .ldStVx _ => 30
  | .addI _ => 31
  | .ldF _ => 32
  | .ldB _ => 33
  | .stRegs _ => 34
  | .ldRegs _ => 35
  | .unrec _ => 36

/-- One row of the opcode map: the row is selected when `op & mask = pattern` (R65). -/
structure OpcodeRow where
  num : Nat
  mask : Word
  pattern : Word
  deriving DecidableEq, Repr

/-- A word matches a row (R65). -/
def OpcodeRow.matchesWord (r : OpcodeRow) (w : Word) : Bool := w &&& r.mask = r.pattern

/-- Rows 1 to 12 of R65. -/
def opcodeRowsA : List OpcodeRow :=
  [⟨1, 0xFFFF, 0x0000⟩, ⟨2, 0xFFFF, 0x00E0⟩, ⟨3, 0xFFFF, 0x00EE⟩, ⟨4, 0xF000, 0x1000⟩] ++
  [⟨5, 0xF000, 0x2000⟩, ⟨6, 0xF000, 0x3000⟩, ⟨7, 0xF000, 0x4000⟩, ⟨8, 0xF00F, 0x5000⟩] ++
  [⟨9, 0xF000, 0x6000⟩, ⟨10, 0xF000, 0x7000⟩, ⟨11, 0xF00F, 0x8000⟩, ⟨12, 0xF00F, 0x8001⟩]

/-- Rows 13 to 24 of R65. -/
def opcodeRowsB : List OpcodeRow :=
  [⟨13, 0xF00F, 0x8002⟩, ⟨14, 0xF00F, 0x8003⟩, ⟨15, 0xF00F, 0x8004⟩, ⟨16, 0xF00F, 0x8005⟩] ++
  [⟨17, 0xF00F, 0x8006⟩, ⟨18, 0xF00F, 0x8007⟩, ⟨19, 0xF00F, 0x800E⟩, ⟨20, 0xF00F, 0x9000⟩] ++
  [⟨21, 0xF000, 0xA000⟩, ⟨22, 0xF000, 0xB000⟩, ⟨23, 0xF000, 0xC000⟩, ⟨24, 0xF000, 0xD000⟩]

/-- Rows 25 to 35 of R65. -/
def opcodeRowsC : List OpcodeRow :=
  [⟨25, 0xF0FF, 0xE09E⟩, ⟨26, 0xF0FF, 0xE0A1⟩, ⟨27, 0xF0FF, 0xF007⟩, ⟨28, 0xF0FF, 0xF00A⟩] ++
  [⟨29, 0xF0FF, 0xF015⟩, ⟨30, 0xF0FF, 0xF018⟩, ⟨31, 0xF0FF, 0xF01E⟩, ⟨32, 0xF0FF, 0xF029⟩] ++
  [⟨33, 0xF0FF, 0xF033⟩, ⟨34, 0xF0FF, 0xF055⟩, ⟨35, 0xF0FF, 0xF065⟩]

/-- The 35 patterns of R65; row 36 is every word that matches none of them. -/
def opcodeRows : List OpcodeRow := opcodeRowsA ++ opcodeRowsB ++ opcodeRowsC

end Sys2Proof
end

