-- ==== Sys2Proof/WellFormed.lean ====
section
/-! DEFINITION. Which terms of `Instr` are instructions of the machine. Register numbers, heights
and immediates are in range by their types; the one check is that the catch-all row holds a word
that matches none of the 35 patterns (`30_encoding.md` R65, R67). -/

namespace Sys2Proof

/-- A word matches none of the 35 patterns of R65. -/
def unrecognized (w : Word) : Bool := opcodeRows.all fun r => !r.matchesWord w

/-- The well-formed instructions. -/
def WellFormed : Instr → Bool
  | .unrec w => unrecognized w
  | .nop | .cls | .ret | .jp _ | .call _ | .seImm _ _ | .sneImm _ _ | .seReg _ _ => true
  | .ldImm _ _ | .addImm _ _ | .ldReg _ _ | .orReg _ _ | .andReg _ _ | .xorReg _ _ => true
  | .addReg _ _ | .subReg _ _ | .shr _ _ | .subnReg _ _ | .shl _ _ | .sneReg _ _ => true
  | .ldI _ | .jpV0 _ | .rnd _ _ | .drw _ _ _ | .skp _ | .sknp _ | .ldVxDt _ | .ldVxK _ => true
  | .ldDtVx _ | .ldStVx _ | .addI _ | .ldF _ | .ldB _ | .stRegs _ | .ldRegs _ => true

end Sys2Proof
end

