-- ==== Sys2Proof/Decode.lean ====
section
/-! DEFINITION. The decoder of `30_encoding.md` R61 to R67, total on any bytes, and after it the
encoder, written from the same encodings (R62, R65). -/

namespace Sys2Proof

/-! ## Fields (R61) -/

/-- `top = op[15:12]`. -/
def topOf (w : Word) : BitVec 4 := w.extractLsb' 12 4

/-- The 4 bits `op[11:8]`, which name Vx. -/
def xBits (w : Word) : BitVec 4 := w.extractLsb' 8 4

/-- The 4 bits `op[7:4]`, which name Vy. -/
def yBits (w : Word) : BitVec 4 := w.extractLsb' 4 4

/-- `n = op[3:0]`, also `lo4`. -/
def nBits (w : Word) : BitVec 4 := w.extractLsb' 0 4

/-- `kk = op[7:0]`, also `lo8`. -/
def kkOf (w : Word) : Byte := w.extractLsb' 0 8

/-- `nnn = op[11:0]`. -/
def nnnOf (w : Word) : Addr12 := w.extractLsb' 0 12

/-- A 4-bit field read as a number 0..15. -/
def fieldIndex (b : BitVec 4) : Fin 16 := ⟨b.toNat, b.isLt⟩

/-- `x`: the index of register Vx. -/
def xOf (w : Word) : Reg := fieldIndex (xBits w)

/-- `y`: the index of register Vy. -/
def yOf (w : Word) : Reg := fieldIndex (yBits w)

/-- `n`: the sprite height. -/
def nOf (w : Word) : Fin 16 := fieldIndex (nBits w)

/-! ## Decoding -/

/-- Family 0x0: three whole words, everything else unrecognized (R66, R67 (a)). -/
def decodeZero (w : Word) : Instr :=
  if w = 0x0000 then .nop
  else if w = 0x00E0 then .cls
  else if w = 0x00EE then .ret
  else .unrec w

/-- Family 0x8: selected by `lo4` (R66, R67 (c)). -/
def decodeEight (w : Word) : Instr :=
  if nBits w = 0x0 then .ldReg (xOf w) (yOf w)
  else if nBits w = 0x1 then .orReg (xOf w) (yOf w)
  else if nBits w = 0x2 then .andReg (xOf w) (yOf w)
  else if nBits w = 0x3 then .xorReg (xOf w) (yOf w)
  else if nBits w = 0x4 then .addReg (xOf w) (yOf w)
  else if nBits w = 0x5 then .subReg (xOf w) (yOf w)
  else if nBits w = 0x6 then .shr (xOf w) (yOf w)
  else if nBits w = 0x7 then .subnReg (xOf w) (yOf w)
  else if nBits w = 0xE then .shl (xOf w) (yOf w)
  else .unrec w

/-- Family 0xE: selected by `lo8` (R66, R67 (e)). -/
def decodeE (w : Word) : Instr :=
  if kkOf w = 0x9E then .skp (xOf w)
  else if kkOf w = 0xA1 then .sknp (xOf w)
  else .unrec w

/-- Family 0xF: selected by `lo8` (R66, R67 (f)). -/
def decodeF (w : Word) : Instr :=
  if kkOf w = 0x07 then .ldVxDt (xOf w)
  else if kkOf w = 0x0A then .ldVxK (xOf w)
  else if kkOf w = 0x15 then .ldDtVx (xOf w)
  else if kkOf w = 0x18 then .ldStVx (xOf w)
  else if kkOf w = 0x1E then .addI (xOf w)
  else if kkOf w = 0x29 then .ldF (xOf w)
  else if kkOf w = 0x33 then .ldB (xOf w)
  else if kkOf w = 0x55 then .stRegs (xOf w)
  else if kkOf w = 0x65 then .ldRegs (xOf w)
  else .unrec w

/-- The instruction a 16-bit word stands for: "Decode the top nibble to select an opcode family,
then sub-fields as needed" (R64), with exact matching (R66). Total: every word has exactly one
meaning (R67). -/
def decodeWord (w : Word) : Instr :=
  if topOf w = 0x0 then decodeZero w
  else if topOf w = 0x1 then .jp (nnnOf w)
  else if topOf w = 0x2 then .call (nnnOf w)
  else if topOf w = 0x3 then .seImm (xOf w) (kkOf w)
  else if topOf w = 0x4 then .sneImm (xOf w) (kkOf w)
  else if topOf w = 0x5 then (if nBits w = 0x0 then .seReg (xOf w) (yOf w) else .unrec w)
  else if topOf w = 0x6 then .ldImm (xOf w) (kkOf w)
  else if topOf w = 0x7 then .addImm (xOf w) (kkOf w)
  else if topOf w = 0x8 then decodeEight w
  else if topOf w = 0x9 then (if nBits w = 0x0 then .sneReg (xOf w) (yOf w) else .unrec w)
  else if topOf w = 0xA then .ldI (nnnOf w)
  else if topOf w = 0xB then .jpV0 (nnnOf w)
  else if topOf w = 0xC then .rnd (xOf w) (kkOf w)
  else if topOf w = 0xD then .drw (xOf w) (yOf w) (nOf w)
  else if topOf w = 0xE then decodeE w
  else decodeF w

/-- The instruction word of two bytes in memory order: the byte at the lower address is bits 15:8
(`20_memory.md` R42). -/
def wordOfBytes (hi lo : Byte) : Word := hi ++ lo

/-- Why a list of bytes holds no instruction. -/
inductive DecodeError where
  /-- Fewer than the two bytes of an instruction word (R60). -/
  | truncated
  deriving DecidableEq, Repr

/-- The first instruction of a list of bytes and the bytes after it. Total; the only bytes it
rejects are too few of them, since every word is an instruction (R60, R67). -/
def decode : List Byte → Except DecodeError (Instr × List Byte)
  | hi :: lo :: rest => .ok (decodeWord (wordOfBytes hi lo), rest)
  | _ => .error .truncated

/-- The two bytes of an instruction word, as memory holds them: high byte first (R42, R60). -/
def bytesOfWord (w : Word) : List Byte := [w.extractLsb' 8 8, w.extractLsb' 0 8]

/-- The word of an opcode-table row given as a number of `nbits` bits. An instruction has 16 bits;
bits above `nbits` are 0, and a longer word is none of this machine (log 21). -/
def tableWord (nbits w : Nat) : Option Word :=
  if nbits ≤ 16 then some (BitVec.ofNat 16 (w % 2 ^ nbits)) else none

/-- What the decoder reads from a word numbered as `spec/opcode_table.json` numbers it. -/
def decodeTableWord (nbits w : Nat) : Option Instr :=
  match tableWord nbits w with
  | none => none
  | some word =>
    match decode (bytesOfWord word) with
    | .ok (i, _) => some i
    | .error _ => none

/-! ## Encoding (R62, R65) -/

/-- A number 0..15 as a 4-bit field. -/
def fieldBits (r : Fin 16) : BitVec 4 := BitVec.ofFin r

/-- Format NNN. -/
def encodeNNN (top : BitVec 4) (nnn : Addr12) : Word := top ++ nnn

/-- Format XKK, and format X with a fixed `lo8`. -/
def encodeXKK (top : BitVec 4) (x : Reg) (kk : Byte) : Word := top ++ fieldBits x ++ kk

/-- Format XYN, and format XY with a fixed `lo4`. -/
def encodeXYN (top : BitVec 4) (x y : Reg) (n : BitVec 4) : Word :=
  top ++ fieldBits x ++ fieldBits y ++ n

/-- The word of an instruction (R65). -/
def encode : Instr → Word
  | .nop => 0x0000
  | .cls => 0x00E0
  | .ret => 0x00EE
  | .jp nnn => encodeNNN 0x1 nnn
  | .call nnn => encodeNNN 0x2 nnn
  | .seImm x kk => encodeXKK 0x3 x kk
  | .sneImm x kk => encodeXKK 0x4 x kk
  | .seReg x y => encodeXYN 0x5 x y 0x0
  | .ldImm x kk => encodeXKK 0x6 x kk
  | .addImm x kk => encodeXKK 0x7 x kk
  | .ldReg x y => encodeXYN 0x8 x y 0x0
  | .orReg x y => encodeXYN 0x8 x y 0x1
  | .andReg x y => encodeXYN 0x8 x y 0x2
  | .xorReg x y => encodeXYN 0x8 x y 0x3
  | .addReg x y => encodeXYN 0x8 x y 0x4
  | .subReg x y => encodeXYN 0x8 x y 0x5
  | .shr x y => encodeXYN 0x8 x y 0x6
  | .subnReg x y => encodeXYN 0x8 x y 0x7
  | .shl x y => encodeXYN 0x8 x y 0xE
  | .sneReg x y => encodeXYN 0x9 x y 0x0
  | .ldI nnn => encodeNNN 0xA nnn
  | .jpV0 nnn => encodeNNN 0xB nnn
  | .rnd x kk => encodeXKK 0xC x kk
  | .drw x y n => encodeXYN 0xD x y (fieldBits n)
  | .skp x => encodeXKK 0xE x 0x9E
  | .sknp x => encodeXKK 0xE x 0xA1
  | .ldVxDt x => encodeXKK 0xF x 0x07
  | .ldVxK x => encodeXKK 0xF x 0x0A
  | .ldDtVx x => encodeXKK 0xF x 0x15
  | .ldStVx x => encodeXKK 0xF x 0x18
  | .addI x => encodeXKK 0xF x 0x1E
  | .ldF x => encodeXKK 0xF x 0x29
  | .ldB x => encodeXKK 0xF x 0x33
  | .stRegs x => encodeXKK 0xF x 0x55
  | .ldRegs x => encodeXKK 0xF x 0x65
  | .unrec w => w

end Sys2Proof
end

