-- ==== Sys2Proof/Machine/State.lean ====
section
/-! DEFINITION. The machine's state as plain data (`10_state.md`), why a step can stop, and the
state after reset. -/

namespace Sys2Proof.Machine

/-- MODE (R22): run status, not a privilege level (R167). -/
inductive Mode where
  /-- RUN: the core executes a Step when asked. -/
  | run
  /-- WAITKEY: held inside an 0xFx0A instruction until a key-press event. -/
  | waitKey
  /-- FAULT: stopped until Reset. -/
  | fault
  deriving DecidableEq, Repr

/-- FCAUSE (R24, R161). Codes 6 and 7 are never produced (R161; log 15). -/
inductive FaultCause where
  | none
  | fetchOob
  | dataOob
  | stackOverflow
  | stackUnderflow
  | keyIndex
  deriving DecidableEq, Repr

/-- Where the host stands in the boot order Reset, Load, first Step (R193, R194; log 7). The
model's own bookkeeping: it decides only whether a Load has a meaning. -/
inductive BootStage where
  /-- Reset done, no Load and no Step yet. -/
  | fresh
  /-- The image is loaded, no Step yet. -/
  | loaded
  /-- The first Step has been taken. -/
  | running
  deriving DecidableEq, Repr

/-- The events of R30, as the schedule lists them. The `rand` of a Step is the free value of
log 2. -/
inductive Event where
  /-- `Step(rand)` (R64). -/
  | step
  /-- `Tick` (R168). -/
  | tick
  /-- `KeyEvent(k, pressed)` (R171, R172). -/
  | key (k : Key) (pressed : Bool)
  /-- `Reset` (R190). -/
  | reset
  /-- `Load(image)` (R193). -/
  | load (image : List Byte)
  /-- `FbRead` (R173). -/
  | fbRead
  deriving DecidableEq, Repr

/-- Main memory: the bytes that differ from their reset contents, addresses rising (R19, R40;
`Memory.wf` in Ops.lean is the canonical form). -/
abbrev Memory := List Host.Cell

/-- FB: 32 rows of 64 cells (R20). -/
abbrev Framebuffer := Vector (Vector Bool 64) 32

/-- The machine's state: R10 to R24 in their order, then the model's own three fields. -/
structure State where
  /-- V0..VF (R10); VF is the flag register (R12). -/
  v : Vector Byte 16
  /-- I (R13). -/
  i : Word
  /-- PC (R14). -/
  pc : Word
  /-- SP (R15): the number of call-stack entries in use. -/
  sp : Byte
  /-- STK (R16): each entry is the address of the CALL that pushed it. -/
  stk : Vector Word 16
  /-- DT (R17). -/
  dt : Byte
  /-- ST (R18). -/
  st : Byte
  /-- MEM (R19). -/
  mem : Memory
  /-- FB (R20). -/
  fb : Framebuffer
  /-- KEY (R21). -/
  key : Vector Bool 16
  /-- MODE (R22). -/
  mode : Mode
  /-- WAITX (R23). -/
  waitx : Reg
  /-- FCAUSE (R24). -/
  fcause : FaultCause
  /-- FINFO (R24). -/
  finfo : Word
  /-- The model's own: how many random bytes have been consumed (log 2). -/
  draws : Nat
  /-- The model's own: the place in the boot order (log 7). -/
  stage : BootStage
  /-- The model's own: the events to come, oldest first; when it is empty the core takes a Step
  (R32; log 1). -/
  sched : List Event
  deriving DecidableEq, Repr

/-- Why the model stops with a fault. The machine's own faults (R161) are not here: they are next
states with the fault latch set (R163; log 11). -/
inductive Fault where
  /-- Raised by RET when SP is above 16, so that `STK[SP - 1]` does not exist. SP never takes such
  a value (R15) and the spec gives that return no effect (R48). Safe: the model stops (log 6). -/
  | stackEntryAbsent
  deriving DecidableEq, Repr

/-- Why the model gives an action no meaning. -/
inductive Refusal where
  /-- Raised by `exec` for an instruction without a meaning; no arm does so. Safe. -/
  | notModelled (mnemonic : String)
  /-- Raised by a Load of more than 3584 bytes: "is refused by the load port ... and the machine
  must not be started" (R193; log 8). Safe. -/
  | imageTooLong
  /-- Raised by a second Load, or a Load after the first Step: "the block gives these no meaning"
  (R179, R193; log 7). Safe. -/
  | loadOutOfOrder
  deriving DecidableEq, Repr

/-- The state after Reset and before Load (R29, R190). Memory lists nothing: every byte reads as
its reset contents. The zeros are the spec's decision D12 (log 3). -/
def State.reset : State where
  v := Vector.replicate 16 0
  i := 0
  pc := Config.resetPc
  sp := 0
  stk := Vector.replicate 16 0
  dt := 0
  st := 0
  mem := []
  fb := Vector.replicate 32 (Vector.replicate 64 false)
  key := Vector.replicate 16 false
  mode := .run
  waitx := 0
  fcause := .none
  finfo := 0
  draws := 0
  stage := .fresh
  sched := []

end Sys2Proof.Machine
end

