-- ==== Sys2Proof/Machine/Ops.lean ====
section
/-! DEFINITION. The named operations over memory, registers, call stack, framebuffer and keys, and
taking a fault. Every meaning is written with these. -/

namespace Sys2Proof.Machine

/-! ## Fault causes (R161) -/

/-- The 3-bit code of FCAUSE (R161). -/
def FaultCause.code : FaultCause → BitVec 3
  | .none => 0
  | .fetchOob => 1
  | .dataOob => 2
  | .stackOverflow => 3
  | .stackUnderflow => 4
  | .keyIndex => 5

/-! ## Memory (`20_memory.md`) -/

/-- What a byte of memory reads as when nothing has written it: its reset contents, FONTSET at
0x000..0x04F and 0 elsewhere (R29, R41, R192; log 5). Outside memory it is 0, which no
instruction reads: every access is range-checked first (R45; log 17). -/
def resetByte (a : Nat) : Byte := if a < Config.fontSize then Config.fontset.getD a 0 else 0

/-- The byte at an address. -/
def readCell : Memory → Nat → Byte
  | [], a => resetByte a
  | (k, b) :: m, a => if k = a then b else readCell m a

/-- The cell of one byte, or no cell when the byte is what the address reads as unlisted. -/
def cellFor (a : Nat) (b : Byte) : Memory := if b = resetByte a then [] else [(a, b)]

/-- Store one byte, keeping the canonical form. -/
def writeCell : Memory → Nat → Byte → Memory
  | [], a, b => cellFor a b
  | (k, c) :: m, a, b =>
    if a < k then cellFor a b ++ (k, c) :: m
    else if a = k then cellFor a b ++ m
    else (k, c) :: writeCell m a b

/-- The canonical form from address `lo` on: addresses strictly rising and inside memory, no entry
equal to what the address reads as unlisted. -/
def Memory.wfFrom : Nat → Memory → Bool
  | _, [] => true
  | lo, (k, b) :: m =>
    decide (lo ≤ k) && decide (k < Config.memSize) && decide (b ≠ resetByte k)
      && Memory.wfFrom (k + 1) m

/-- The canonical form of memory: equal memories are equal lists. -/
def Memory.wf (m : Memory) : Bool := Memory.wfFrom 0 m

/-- `MemRead(addr, 1)` (R7). -/
def State.readByte (s : State) (a : Nat) : Byte := readCell s.mem a

/-- `MemRead(addr, 2)`: big-endian, used by fetch only (R7, R42). -/
def State.readWord (s : State) (a : Nat) : Word := wordOfBytes (s.readByte a) (s.readByte (a + 1))

/-! ## Field updates -/

/-- Set I. -/
def State.setI (s : State) (w : Word) : State := { s with i := w }

/-- Set PC. -/
def State.setPc (s : State) (w : Word) : State := { s with pc := w }

/-- Set SP. -/
def State.setSp (s : State) (b : Byte) : State := { s with sp := b }

/-- Set the call stack. -/
def State.setStk (s : State) (k : Vector Word 16) : State := { s with stk := k }

/-- Set DT. -/
def State.setDt (s : State) (b : Byte) : State := { s with dt := b }

/-- Set ST. -/
def State.setSt (s : State) (b : Byte) : State := { s with st := b }

/-- Set the memory. -/
def State.setMem (s : State) (m : Memory) : State := { s with mem := m }

/-- Set the framebuffer. -/
def State.setFb (s : State) (f : Framebuffer) : State := { s with fb := f }

/-- Set the input state. -/
def State.setKeys (s : State) (k : Vector Bool 16) : State := { s with key := k }

/-- Set MODE. -/
def State.setMode (s : State) (m : Mode) : State := { s with mode := m }

/-- Set WAITX. -/
def State.setWaitx (s : State) (x : Reg) : State := { s with waitx := x }

/-- Set FCAUSE and FINFO, the fault latch. -/
def State.setLatch (s : State) (c : FaultCause) (info : Word) : State :=
  { s with fcause := c, finfo := info }

/-- Count one more random byte as consumed (log 2). -/
def State.countDraw (s : State) : State := { s with draws := s.draws + 1 }

/-- Set the place in the boot order (log 7). -/
def State.setStage (s : State) (b : BootStage) : State := { s with stage := b }

/-- Set the events to come (log 1). -/
def State.setSched (s : State) (es : List Event) : State := { s with sched := es }

/-! ## General registers (R10) -/

/-- `V[x]`. -/
def State.getV (s : State) (x : Reg) : Byte := s.v[x]

/-- `V[x] <- b`. -/
def State.setV (s : State) (x : Reg) (b : Byte) : State := { s with v := s.v.set x b }

/-- `MemWrite(addr, 1, v)` (R7). -/
def State.writeByte (s : State) (a : Nat) (b : Byte) : State := s.setMem (writeCell s.mem a b)

/-! ## Taking a fault (R163) and leaving it (R164) -/

/-- `raise Fault(cause, info)`: the latch and MODE, and nothing else; pc keeps the address of the
faulting instruction (R163). -/
def State.raiseFault (s : State) (cause : FaultCause) (info : Word) : State :=
  (s.setLatch cause info).setMode .fault

/-- The Reset event, the only way out of MODE = FAULT; there is no return-from-fault instruction
(R164, R190). Every piece of the machine's state takes its reset value. What is to come from
outside, the schedule and the random draws not yet consumed, is not the machine's and stays
(log 10). -/
def State.resetEvent (s : State) : State :=
  { State.reset with draws := s.draws, sched := s.sched }

/-! ## PC (R14, R70) -/

/-- "PC+=2". -/
def State.advance (s : State) : State := s.setPc (s.pc + 2)

/-- "PC+=4 or 2". -/
def State.skipIf (s : State) (cond : Bool) : State := s.setPc (s.pc + if cond then 4 else 2)

/-! ## Call stack (R15, R16) -/

/-- `STK[j]`, absent outside 0..15. -/
def State.stackEntry (s : State) (j : Nat) : Option Word := s.stk[j]?

/-- `STK[SP] <- w; SP <- SP + 1`, absent when all 16 entries are in use. -/
def State.pushStack (s : State) (w : Word) : Option State :=
  if h : s.sp.toNat < 16 then some ((s.setStk (s.stk.set s.sp.toNat w h)).setSp (s.sp + 1))
  else none

/-! ## Block transfers (R134, R135) -/

/-- Store `V[0]`..`V[n-1]` at ascending addresses from `a`. -/
def State.storeRegs (s : State) (a : Nat) : Nat → State
  | 0 => s
  | n + 1 =>
    let t := s.storeRegs a n
    if h : n < 16 then t.writeByte (a + n) (s.getV ⟨n, h⟩) else t

/-- Load `V[0]`..`V[n-1]` from ascending addresses from `a`. -/
def State.loadRegs (s : State) (a : Nat) : Nat → State
  | 0 => s
  | n + 1 =>
    let t := s.loadRegs a n
    if h : n < 16 then t.setV ⟨n, h⟩ (s.readByte (a + n)) else t

/-- Store bytes at ascending addresses from `a`. -/
def State.storeBytes (s : State) (a : Nat) : List Byte → State
  | [] => s
  | b :: bs => (s.writeByte a b).storeBytes (a + 1) bs

/-- The `n` bytes at ascending addresses from `a`. -/
def State.readBytes (s : State) (a : Nat) : Nat → List Byte
  | 0 => []
  | n + 1 => s.readByte a :: s.readBytes (a + 1) n

/-! ## Framebuffer (R20, R142) -/

/-- `FB[row][col]`. -/
def cellAt (fb : Framebuffer) (row : Fin 32) (col : Fin 64) : Bool := fb[row][col]

/-- `FB[row][col] <- FB[row][col] ^ 1`. -/
def toggleCell (fb : Framebuffer) (row : Fin 32) (col : Fin 64) : Framebuffer :=
  fb.set row (fb[row].set col (!cellAt fb row col))

/-- Every cell 0. -/
def blankFramebuffer : Framebuffer := Vector.replicate 32 (Vector.replicate 64 false)

/-- The framebuffer row of sprite row `r`: `(Vy + r) mod 32` (R142). -/
def pixelRow (y0 : Byte) (r : Nat) : Fin 32 :=
  ⟨(y0.toNat + r) % 32, Nat.mod_lt _ (by decide)⟩

/-- The framebuffer column of sprite column `c`: `(Vx + c) mod 64` (R142). -/
def pixelCol (x0 : Byte) (c : Nat) : Fin 64 :=
  ⟨(x0.toNat + c) % 64, Nat.mod_lt _ (by decide)⟩

/-- Sprite column `c` of a sprite byte: bit `7 - c`, so that column 0 is the most significant bit
(R142). PRESUMED in the spec itself: general knowledge, decision D14 (log 20). -/
def spriteBit (b : Byte) (c : Nat) : Bool := b.getLsbD (7 - c)

/-- The cells that one sprite byte toggles, columns 0 to 7. -/
def rowCells (x0 y0 : Byte) (r : Nat) (b : Byte) : List (Fin 32 × Fin 64) :=
  ((List.range 8).filter (spriteBit b)).map fun c => (pixelRow y0 r, pixelCol x0 c)

/-- The cells that the sprite bytes toggle, the first byte being sprite row `r`. -/
def spriteCells (x0 y0 : Byte) : Nat → List Byte → List (Fin 32 × Fin 64)
  | _, [] => []
  | r, b :: bs => rowCells x0 y0 r b ++ spriteCells x0 y0 (r + 1) bs

/-- One pixel of R141: note whether the cell goes from 1 to 0, and toggle it. -/
def drawCell (acc : Framebuffer × Bool) (p : Fin 32 × Fin 64) : Framebuffer × Bool :=
  (toggleCell acc.1 p.1 p.2, acc.2 || cellAt acc.1 p.1 p.2)

/-- The framebuffer after toggling the cells in order, and whether one went from 1 to 0 (R141). -/
def drawCells (fb : Framebuffer) (cells : List (Fin 32 × Fin 64)) : Framebuffer × Bool :=
  cells.foldl drawCell (fb, false)

/-! ## Keys (R21) -/

/-- `KEY[k]` for a byte `k`, absent for `k > 0xF`. -/
def State.keyAt (s : State) (k : Byte) : Option Bool := s.key[k.toNat]?

end Sys2Proof.Machine
end

