-- ==== Sys2Proof/Machine/Operands.lean ====
section
/-! DEFINITION. The operand forms: the one addressing mode `I + j` with its range check
(`20_memory.md` R45, R46), immediates (`30_encoding.md` R63), and the operands computed from a
register. -/

namespace Sys2Proof.Machine

/-- The address of byte `j` of a data access: the unbounded integer `I + j` (R46). -/
def State.dataAddr (s : State) (j : Nat) : Nat := s.i.toNat + j

/-- An access of `len` bytes from I leaves memory: `len >= 1` and `I + len - 1 > 0xFFF` (R45). -/
def State.dataOob (s : State) (len : Nat) : Bool :=
  decide (1 ≤ len) && decide (0xFFF < s.dataAddr (len - 1))

/-- Do `act`, an access of `len` bytes from I, or take DATA_OOB with nothing accessed (R45, R47). -/
def State.withData (s : State) (len : Nat) (act : State → State) : State :=
  if s.dataOob len then s.raiseFault .dataOob s.i else act s

/-- `I <- (I + k) mod 65536` (R131, R134, R135). -/
def State.bumpI (s : State) (k : Word) : State := s.setI (s.i + k)

/-- The number of registers V0..Vx (R63). -/
def regCount (x : Reg) : Nat := x.val + 1

/-- The address of the glyph of a byte: `zext_16(Vx) * 5` (R132). -/
def glyphAddr (b : Byte) : Word := zextByte b * 5

/-- The three decimal digits of a byte: hundreds, tens, units (R133). -/
def bcdDigits (b : Byte) : List Byte :=
  [BitVec.ofNat 8 (b.toNat / 100), BitVec.ofNat 8 (b.toNat / 10 % 10), BitVec.ofNat 8 (b.toNat % 10)]

/-- `V[x] op V[y]` written to Vx, no flag (R113 to R115). -/
def State.logicOp (s : State) (op : Byte → Byte → Byte) (x y : Reg) : State :=
  (s.setV x (op (s.getV x) (s.getV y))).advance

/-- Skip on the level of the key whose code is in Vx, or take KEY_INDEX for a code above 0xF
(R150, R151). -/
def State.skipOnKey (s : State) (x : Reg) (level : Bool) : State :=
  match s.keyAt (s.getV x) with
  | some pressed => s.skipIf (pressed == level)
  | none => s.raiseFault .keyIndex (zextByte (s.getV x))

end Sys2Proof.Machine
end

