-- ==== Sys2Proof/Machine/Flags.lean ====
section
/-! DEFINITION. Every flag computation (`10_state.md` R12) and how a flag is written
(`42_alu.md` R122). VF is the only flag; its values are exactly 0x00 and 0x01 (R123). -/

namespace Sys2Proof.Machine

/-- VF = `V[15]` (R12). -/
def vf : Reg := 15

/-- A flag as the byte 0x00 or 0x01 (R123). -/
def flagByte (f : Bool) : Byte := if f then 1 else 0

/-- 0x8xy4: the sum exceeds 255 (R116). -/
def carryFlag (a b : Byte) : Bool := decide (255 < a.toNat + b.toNat)

/-- 0x8xy5 with `a` = Vx and `b` = Vy, 0x8xy7 with `a` = Vy and `b` = Vx: the minuend is STRICTLY
greater, so equal operands give 0 (R117, R119, `90_conflicts.md` C5). -/
def greaterFlag (a b : Byte) : Bool := decide (b.toNat < a.toNat)

/-- 0x8xy6: the bit shifted out, bit 0 (R118). -/
def lowBit (a : Byte) : Bool := a.getLsbD 0

/-- 0x8xyE: the bit shifted out, bit 7 (R120). -/
def highBit (a : Byte) : Bool := a.getLsbD 7

/-- The writes of a flag-writing instruction in the table's order: the flag to VF first, the result
to Vx second, so that with x = F the result stands (R122). -/
def State.writeFlagged (s : State) (x : Reg) (flag : Bool) (result : Byte) : State :=
  ((s.setV vf (flagByte flag)).setV x result).advance

end Sys2Proof.Machine
end

