-- ==== Sys2Proof/Machine/Alu.lean ====
section
/-! DEFINITION. Register load, arithmetic, logic, shift, random (`42_alu.md`). Operands are read
from the state the instruction starts in (R122). -/

namespace Sys2Proof.Machine

/-- 0x6xkk LD Vx, kk (R110). -/
def execLdImm (x : Reg) (kk : Byte) (s : State) : Host.Outcome State Fault Refusal :=
  .next (s.setV x kk).advance

/-- 0x7xkk ADD Vx, kk (R111): wraps modulo 256, no flag. -/
def execAddImm (x : Reg) (kk : Byte) (s : State) : Host.Outcome State Fault Refusal :=
  .next (s.setV x (s.getV x + kk)).advance

/-- 0x8xy0 LD Vx, Vy (R112). -/
def execLdReg (x y : Reg) (s : State) : Host.Outcome State Fault Refusal :=
  .next (s.setV x (s.getV y)).advance

/-- 0x8xy1 OR Vx, Vy (R113). -/
def execOrReg (x y : Reg) (s : State) : Host.Outcome State Fault Refusal :=
  .next (s.logicOp (· ||| ·) x y)

/-- 0x8xy2 AND Vx, Vy (R114). -/
def execAndReg (x y : Reg) (s : State) : Host.Outcome State Fault Refusal :=
  .next (s.logicOp (· &&& ·) x y)

/-- 0x8xy3 XOR Vx, Vy (R115). -/
def execXorReg (x y : Reg) (s : State) : Host.Outcome State Fault Refusal :=
  .next (s.logicOp (· ^^^ ·) x y)

/-- 0x8xy4 ADD Vx, Vy (R116). -/
def execAddReg (x y : Reg) (s : State) : Host.Outcome State Fault Refusal :=
  .next (s.writeFlagged x (carryFlag (s.getV x) (s.getV y)) (s.getV x + s.getV y))

/-- 0x8xy5 SUB Vx, Vy (R117). -/
def execSubReg (x y : Reg) (s : State) : Host.Outcome State Fault Refusal :=
  .next (s.writeFlagged x (greaterFlag (s.getV x) (s.getV y)) (s.getV x - s.getV y))

/-- 0x8xy6 SHR Vx (R118): Vx alone, y ignored (R68). -/
def execShr (x _y : Reg) (s : State) : Host.Outcome State Fault Refusal :=
  .next (s.writeFlagged x (lowBit (s.getV x)) (s.getV x >>> 1))

/-- 0x8xy7 SUBN Vx, Vy (R119). -/
def execSubnReg (x y : Reg) (s : State) : Host.Outcome State Fault Refusal :=
  .next (s.writeFlagged x (greaterFlag (s.getV y) (s.getV x)) (s.getV y - s.getV x))

/-- 0x8xyE SHL Vx (R120): Vx alone, y ignored (R68). -/
def execShl (x _y : Reg) (s : State) : Host.Outcome State Fault Refusal :=
  .next (s.writeFlagged x (highBit (s.getV x)) (s.getV x <<< 1))

/-- 0xCxkk RND Vx, kk (R121): `kk & rand`, with `rand` the next free byte (R174; log 2). -/
def execRnd (x : Reg) (kk : Byte) (s : State) : Host.Outcome State Fault Refusal :=
  .next ((s.setV x (kk &&& Config.randomByte s.draws)).countDraw).advance

end Sys2Proof.Machine
end

