-- ==== Sys2Proof/Machine/Display.lean ====
section
/-! DEFINITION. The framebuffer write engine (`44_display.md`). -/

namespace Sys2Proof.Machine

/-- The sprite of a draw: the cells that its set bits address, from Vx, Vy and `MEM[I..I+n-1]`
(R141, R142). -/
def State.spriteOf (s : State) (x y : Reg) (n : Nat) : List (Fin 32 × Fin 64) :=
  spriteCells (s.getV x) (s.getV y) 0 (s.readBytes (s.dataAddr 0) n)

/-- The framebuffer and the collision flag after toggling the cells; VF is written last (R141). -/
def State.drawOnto (s : State) (cells : List (Fin 32 × Fin 64)) : State :=
  (s.setFb (drawCells s.fb cells).1).setV vf (flagByte (drawCells s.fb cells).2)

/-- 0x00E0 CLS (R140). -/
def execCls (s : State) : Host.Outcome State Fault Refusal :=
  .next (s.setFb blankFramebuffer).advance

/-- 0xDxyn DRW Vx, Vy, n (R141): coordinates sampled before VF is written; n = 0 accesses nothing
and writes VF = 0. -/
def execDrw (x y : Reg) (n : Fin 16) (s : State) : Host.Outcome State Fault Refusal :=
  .next (s.withData n.val fun s => (s.drawOnto (s.spriteOf x y n.val)).advance)

end Sys2Proof.Machine
end

