-- ==== Sys2Proof/Machine/Flow.lean ====
section
/-! DEFINITION. No-operation, jumps, call and return (`40_flow.md`). -/

namespace Sys2Proof.Machine

/-- 0x0000 NOP (R80). -/
def execNop (s : State) : Host.Outcome State Fault Refusal := .next s.advance

/-- 0x00EE RET (R81): SP - 1, then `STK[SP] + 2`; STACK_UNDERFLOW when SP = 0. With SP above 16,
which is never reached (R15), the entry does not exist (R48; log 6). -/
def execRet (s : State) : Host.Outcome State Fault Refusal :=
  if s.sp = 0 then .next (s.raiseFault .stackUnderflow (zextByte s.sp))
  else
    match s.stackEntry (s.sp - 1).toNat with
    | some entry => .next ((s.setSp (s.sp - 1)).setPc (entry + 2))
    | none => .fault .stackEntryAbsent

/-- 0x1nnn JP nnn (R82). -/
def execJp (nnn : Addr12) (s : State) : Host.Outcome State Fault Refusal :=
  .next (s.setPc (zextAddr nnn))

/-- 0x2nnn CALL nnn (R83): pushes the address of the CALL itself; STACK_OVERFLOW when all 16
entries are in use. -/
def execCall (nnn : Addr12) (s : State) : Host.Outcome State Fault Refusal :=
  match s.pushStack s.pc with
  | some t => .next (t.setPc (zextAddr nnn))
  | none => .next (s.raiseFault .stackOverflow (zextByte s.sp))

/-- 0xBnnn JP V0, nnn (R84): a 16-bit sum, not reduced to 12 bits. -/
def execJpV0 (nnn : Addr12) (s : State) : Host.Outcome State Fault Refusal :=
  .next (s.setPc (zextAddr nnn + zextByte (s.getV 0)))

/-- Any other word: UNREC (R85), a no-op, not a trap. -/
def execUnrec (_w : Word) (s : State) : Host.Outcome State Fault Refusal := .next s.advance

end Sys2Proof.Machine
end

