-- ==== Sys2Proof/Machine/IndexMemory.lean ====
section
/-! DEFINITION. Index register and memory transfer instructions (`43_index_memory.md`). -/

namespace Sys2Proof.Machine

/-- 0xAnnn LD I, nnn (R130). -/
def execLdI (nnn : Addr12) (s : State) : Host.Outcome State Fault Refusal :=
  .next (s.setI (zextAddr nnn)).advance

/-- 0xFx1E ADD I, Vx (R131): wraps modulo 65536, no flag. -/
def execAddI (x : Reg) (s : State) : Host.Outcome State Fault Refusal :=
  .next (s.bumpI (zextByte (s.getV x))).advance

/-- 0xFx29 LD F, Vx (R132): the whole byte is multiplied. -/
def execLdF (x : Reg) (s : State) : Host.Outcome State Fault Refusal :=
  .next (s.setI (glyphAddr (s.getV x))).advance

/-- 0xFx33 LD B, Vx (R133). -/
def execLdB (x : Reg) (s : State) : Host.Outcome State Fault Refusal :=
  .next (s.withData 3 fun s => (s.storeBytes (s.dataAddr 0) (bcdDigits (s.getV x))).advance)

/-- 0xFx55 LD [I], Vx (R134): V0..Vx, then I past them. -/
def execStRegs (x : Reg) (s : State) : Host.Outcome State Fault Refusal :=
  .next (s.withData (regCount x) fun s =>
    ((s.storeRegs (s.dataAddr 0) (regCount x)).bumpI (BitVec.ofNat 16 (regCount x))).advance)

/-- 0xFx65 LD Vx, [I] (R135): V0..Vx, then I past them. -/
def execLdRegs (x : Reg) (s : State) : Host.Outcome State Fault Refusal :=
  .next (s.withData (regCount x) fun s =>
    ((s.loadRegs (s.dataAddr 0) (regCount x)).bumpI (BitVec.ofNat 16 (regCount x))).advance)

end Sys2Proof.Machine
end

