-- ==== Sys2Proof/Machine/InputTimers.lean ====
section
/-! DEFINITION. Input and timer instructions (`45_input_timers.md`). -/

namespace Sys2Proof.Machine

/-- 0xEx9E SKP Vx (R150). -/
def execSkp (x : Reg) (s : State) : Host.Outcome State Fault Refusal :=
  .next (s.skipOnKey x true)

/-- 0xExA1 SKNP Vx (R151). -/
def execSknp (x : Reg) (s : State) : Host.Outcome State Fault Refusal :=
  .next (s.skipOnKey x false)

/-- 0xFx0A LD Vx, K (R152): enters the wait; a key-press event completes it (R172). -/
def execLdVxK (x : Reg) (s : State) : Host.Outcome State Fault Refusal :=
  .next ((s.setWaitx x).setMode .waitKey)

/-- 0xFx07 LD Vx, DT (R153). -/
def execLdVxDt (x : Reg) (s : State) : Host.Outcome State Fault Refusal :=
  .next (s.setV x s.dt).advance

/-- 0xFx15 LD DT, Vx (R154). -/
def execLdDtVx (x : Reg) (s : State) : Host.Outcome State Fault Refusal :=
  .next (s.setDt (s.getV x)).advance

/-- 0xFx18 LD ST, Vx (R155). -/
def execLdStVx (x : Reg) (s : State) : Host.Outcome State Fault Refusal :=
  .next (s.setSt (s.getV x)).advance

end Sys2Proof.Machine
end

