-- ==== Sys2Proof/Machine/Events.lean ====
section
/-! DEFINITION. The events other than Step, and the block's outputs (`60_exceptions.md` R168 to
R175, `70_reset_and_hazards.md` R193). Reset is in Ops.lean. -/

namespace Sys2Proof.Machine

/-- One timer of a Tick: never below 0 (R168). -/
def countDown (t : Byte) : Byte := if t = 0 then 0 else t - 1

/-- Tick: one decrement of both timers, in every MODE (R168). -/
def State.tick (s : State) : State := (s.setDt (countDown s.dt)).setSt (countDown s.st)

/-- The second half of 0xFx0A (R172). -/
def State.completeWait (s : State) (k : Key) : State :=
  ((s.setV s.waitx (BitVec.ofNat 8 k.val)).advance).setMode .run

/-- `KeyEvent(k, pressed)`: sets the key's level, and a press ends a key wait (R171, R172). -/
def State.keyEvent (s : State) (k : Key) (pressed : Bool) : State :=
  if pressed && s.mode == .waitKey then (s.setKeys (s.key.set k pressed)).completeWait k
  else s.setKeys (s.key.set k pressed)

/-- `Load(image)`: copies the image to 0x200 and up, once, after Reset and before the first Step
(R193). An image above 3584 bytes is refused whole (log 8), a Load out of this order has no
meaning (R179; log 7). -/
def State.load (s : State) (image : List Byte) : Host.Outcome State Fault Refusal :=
  if s.stage ≠ .fresh then .refused .loadOutOfOrder
  else if Config.progMax < image.length then .refused .imageTooLong
  else .next ((s.storeBytes Config.progBase image).setStage .loaded)

/-- `FbRead`: the 2048 cells; it changes nothing (R173). -/
def State.fbRead (s : State) : Framebuffer := s.fb

/-- The output level `sound_active`: 1 exactly when `ST != 0` (R170). -/
def State.soundActive (s : State) : Bool := decide (s.st ≠ 0)

/-- The status outputs MODE, FCAUSE and FINFO (R24, R175). -/
def State.statusOutputs (s : State) : Mode × BitVec 3 × Word := (s.mode, s.fcause.code, s.finfo)

end Sys2Proof.Machine
end

