-- ==== Sys2Proof/Machine/Cycle.lean ====
section
/-! DEFINITION. The instruction cycle (`30_encoding.md` R64), the events as one function
(`10_state.md` R30), and where an instruction is fetched from. -/

namespace Sys2Proof.Machine

/-- The fetch range test: both bytes of the word are inside memory (R45, R64). -/
def State.fetchInRange (s : State) : Bool := decide (s.pc.toNat ≤ 0xFFE)

/-- The instruction word at PC (R42, R64). -/
def State.fetchWord (s : State) : Word := s.readWord s.pc.toNat

/-- One Step of a running core: FETCH_OOB before decode, else the decoded instruction (R64). -/
def State.runStep (s : State) : Host.Outcome State Fault Refusal :=
  if s.fetchInRange then exec (decodeWord s.fetchWord) s
  else .next (s.raiseFault .fetchOob s.pc)

/-- The Step event: held unless MODE = RUN (R30, R64); a Step taken ends the boot order (log 7). -/
def State.coreStep (s : State) : Host.Outcome State Fault Refusal :=
  match s.mode with
  | .run => (s.setStage .running).runStep
  | .waitKey => .next s
  | .fault => .next s

/-- One event (R30). -/
def State.apply (s : State) : Event → Host.Outcome State Fault Refusal
  | .step => s.coreStep
  | .tick => .next s.tick
  | .key k pressed => .next (s.keyEvent k pressed)
  | .reset => .next s.resetEvent
  | .load image => s.load image
  | .fbRead => .next s

/-- The event the schedule puts next, taken off it; with nothing scheduled the core takes a Step
(R32; log 1). -/
def State.nextEvent (s : State) : Host.Outcome State Fault Refusal :=
  match s.sched with
  | [] => s.coreStep
  | e :: rest => (s.setSched rest).apply e

/-- Put an instruction word where the next Step fetches: at PC, or at the entry point when PC is
where nothing can be fetched; the core runs and nothing is scheduled before it (log 13). -/
def State.placeWord (s : State) (w : Word) : State :=
  let t := ((if s.fetchInRange then s else s.setPc Config.resetPc).setMode .run).setSched []
  t.storeBytes t.pc.toNat (bytesOfWord w)

end Sys2Proof.Machine
end

