-- ==== Sys2Proof/Machine/Step.lean ====
section
/-! DEFINITION. The machine's step, and a state with a given instruction placed at the fetch
address. -/

namespace Sys2Proof.Machine

/-- One atomic event of the machine (R30): see `State.nextEvent`. -/
def step (s : State) : Host.Outcome State Fault Refusal := s.nextEvent

/-- `s` with the instruction of `nbits` bits `w` stored where `step` fetches its next one (log 13). -/
def State.withFetchWord (s : State) (nbits w : Nat) : State :=
  s.placeWord (BitVec.ofNat 16 (w % 2 ^ nbits))

end Sys2Proof.Machine
end

