-- ==== Sys2Proof/Safety.lean ====
section
/-! DEFINITION. The terms in which claims are made: what an event leaves unchanged (frames), the
machine's invariant, reachable and quiescent states. -/

namespace Sys2Proof.Machine

/-! ## Frames -/

/-- The parts of the state other than V, PC and MEM. -/
inductive Part where
  | i
  | sp
  | stk
  | dt
  | st
  | fb
  | key
  | mode
  | waitx
  | fcause
  | finfo
  | draws
  | stage
  | sched
  deriving DecidableEq, Repr

/-- The part has the same value in both states. -/
def Part.same (s t : State) : Part → Prop
  | .i => t.i = s.i
  | .sp => t.sp = s.sp
  | .stk => t.stk = s.stk
  | .dt => t.dt = s.dt
  | .st => t.st = s.st
  | .fb => t.fb = s.fb
  | .key => t.key = s.key
  | .mode => t.mode = s.mode
  | .waitx => t.waitx = s.waitx
  | .fcause => t.fcause = s.fcause
  | .finfo => t.finfo = s.finfo
  | .draws => t.draws = s.draws
  | .stage => t.stage = s.stage
  | .sched => t.sched = s.sched

/-- From `s` to `t`: every general register outside `regs`, every part outside `parts` and every
byte of memory outside `stored` is unchanged. PC may change. -/
structure Frame (regs : List Reg) (parts : List Part) (stored : List Nat) (s t : State) : Prop where
  regs_same : ∀ r, r ∉ regs → t.getV r = s.getV r
  parts_same : ∀ p, p ∉ parts → p.same s t
  mem_same : ∀ a, a ∉ stored → t.readByte a = s.readByte a

/-- The addresses of an access of `len` bytes from I, by the meanings' own `dataAddr`. -/
def State.dataAddrs (s : State) (len : Nat) : List Nat := (List.range len).map s.dataAddr

/-! ## What a store leaves in memory -/

/-- The bytes that 0xFx55 stores, in ascending address order (R134). -/
def storedRegs (s : State) (x : Reg) : List Byte := (List.ofFn s.getV).take (x.val + 1)

/-- The bytes that 0xFx33 stores, in ascending address order (R133). -/
def storedDigits (s : State) (x : Reg) : List Byte :=
  [BitVec.ofNat 8 ((s.getV x).toNat / 100), BitVec.ofNat 8 ((s.getV x).toNat / 10 % 10),
    BitVec.ofNat 8 ((s.getV x).toNat % 10)]

/-- What an address holds once the bytes are stored from I upward: the byte stored there, else the
byte it held before. -/
def State.afterStore (s : State) (bytes : List Byte) (a : Nat) : Byte :=
  if s.dataAddr 0 ≤ a then bytes.getD (a - s.dataAddr 0) (s.readByte a) else s.readByte a

/-! ## The invariant -/

/-- In MODE = FAULT the latch holds one of the causes of R161 with the value that R161 gives it, and
the state still shows the condition (R163, R164). -/
def State.latchAgrees (s : State) : Prop :=
  match s.fcause with
  | .none => False
  | .fetchOob => s.finfo = s.pc ∧ 0xFFE < s.pc.toNat
  | .dataOob => s.finfo = s.i ∧ 0xFF0 < s.i.toNat
  | .stackOverflow => s.finfo = zextByte s.sp ∧ 16 ≤ s.sp.toNat
  | .stackUnderflow => s.finfo = 0 ∧ s.sp = 0
  | .keyIndex => 0xF < s.finfo.toNat ∧ s.finfo.toNat ≤ 0xFF

/-- What every event keeps. -/
structure Inv (s : State) : Prop where
  /-- Memory is in canonical form: inside 0x000..0xFFF, rising, nothing redundant. The model's
  representation of R19 and R40 (log 5, DESIGN CHOICE). -/
  mem_wf : Memory.wf s.mem = true
  /-- "The values SP can take are 0..16" (R15). -/
  sp_le : s.sp.toNat ≤ 16
  /-- A stack entry is the address of an instruction that was fetched, or 0 (R16, R81). -/
  stk_le : ∀ j : Fin 16, s.stk[j].toNat ≤ 0xFFE
  /-- The largest PC any instruction can produce (R14). -/
  pc_le : s.pc.toNat ≤ 0x10FE
  /-- While the core waits for a key, the word at PC is the waiting 0xFx0A and WAITX its x (R23). -/
  wait_word : s.mode = .waitKey → s.pc.toNat ≤ 0xFFE ∧ decodeWord s.fetchWord = .ldVxK s.waitx
  /-- The latch is empty outside MODE = FAULT (R24). -/
  latch_empty : s.mode ≠ .fault → s.fcause = .none ∧ s.finfo = 0
  /-- The latch is filled as R161 says in MODE = FAULT. -/
  latch_full : s.mode = .fault → s.latchAgrees
  /-- Before the first Step the core is neither waiting nor faulted: of R191 and R194, in the model's
  own `stage` (log 7, DEDUCED). -/
  boot_run : s.stage ≠ .running → s.mode = .run

/-! ## Runs -/

/-- The states of every run: from reset, under any schedule of events (R32; log 1). -/
inductive Reachable : State → Prop where
  | start (events : List Event) : Reachable (State.reset.setSched events)
  | next (s t : State) : Reachable s → step s = .next t → Reachable t

/-- A Step leaves the machine as it is; the model's boot bookkeeping apart, which a first Step
ends (R203; log 7). -/
def State.quiescent (s : State) : Prop := s.coreStep = .next (s.setStage .running)

/-- The observer's end of a program: a running core at a self-jump `JP pc` (R203, D24). A state in
MODE = FAULT is never an end (R164). -/
def State.ended (s : State) : Prop :=
  s.mode = .run ∧ s.fetchInRange = true ∧ ∃ nnn, decodeWord s.fetchWord = .jp nnn ∧ zextAddr nnn = s.pc

end Sys2Proof.Machine
end

