-- ==== Sys2Proof/Certificates/Slice0/Obligations.lean ====
section
/-! DEFINITION. The statements for the provers, from the numbered rules of spec/. A statement that
rests on a choice of the model says so and names the log entry. -/

namespace Sys2Proof.Machine

/-! ## The terms of the statements -/

/-- The fault an instruction raises in a state, and its FINFO: the table of R161, causes 2 to 5. -/
def specFault (i : Instr) (s : State) : Option (FaultCause × Word) :=
  match i with
  | .drw _ _ n =>
    if 1 ≤ n.val ∧ 0xFFF < s.i.toNat + n.val - 1 then some (.dataOob, s.i) else none
  | .ldB _ => if 0xFFF < s.i.toNat + 2 then some (.dataOob, s.i) else none
  | .stRegs x | .ldRegs x => if 0xFFF < s.i.toNat + x.val then some (.dataOob, s.i) else none
  | .call _ => if 16 ≤ s.sp.toNat then some (.stackOverflow, zextByte s.sp) else none
  | .ret => if s.sp = 0 then some (.stackUnderflow, 0) else none
  | .skp x | .sknp x =>
    if 0xF < (s.getV x).toNat then some (.keyIndex, zextByte (s.getV x)) else none
  | _ => none

/-- A set bit of the sprite at Vx, Vy of height `n` falls on the cell: R142, word for word. -/
def spriteCovers (s : State) (x y : Reg) (n : Nat) (row : Fin 32) (col : Fin 64) : Prop :=
  ∃ r c : Nat, r < n ∧ c < 8 ∧ row.val = ((s.getV y).toNat + r) % 32 ∧
    col.val = ((s.getV x).toNat + c) % 64 ∧ (s.readByte (s.dataAddr r)).getLsbD (7 - c) = true

/-- The registers V0..Vx. -/
def regsUpTo (x : Reg) : List Reg := (List.finRange 16).filter (· ≤ x)

/-- The six instructions that write VF as a flag (R12). -/
def writesFlag : Instr → Bool
  | .addReg _ _ | .subReg _ _ | .shr _ _ | .subnReg _ _ | .shl _ _ | .drw _ _ _ => true
  | _ => false

/-- The instruction names VF as a register it writes (R12: "unless x = F names it as the
destination"). -/
def namesVfAsDestination : Instr → Bool
  | .ldImm x _ | .addImm x _ | .ldReg x _ | .orReg x _ | .andReg x _ | .xorReg x _ => x == 15
  | .addReg x _ | .subReg x _ | .shr x _ | .subnReg x _ | .shl x _ | .rnd x _ => x == 15
  | .ldVxDt x | .ldRegs x => x == 15
  | _ => false

/-- The three instructions that touch a timer (R17, R18). -/
def touchesTimer : Instr → Bool
  | .ldVxDt _ | .ldDtVx _ | .ldStVx _ => true
  | _ => false

/-- Every piece of the machine's state at the value of R29, memory with FONTSET as the parameter. -/
structure AtReset (t : State) : Prop where
  v_zero : ∀ r, t.getV r = 0
  i_zero : t.i = 0
  pc_entry : t.pc = 0x200
  sp_zero : t.sp = 0
  stk_zero : ∀ j : Fin 16, t.stk[j] = 0
  dt_zero : t.dt = 0
  st_zero : t.st = 0
  mem_font : ∀ a, a < 80 → t.readByte a = Config.fontset.getD a 0
  mem_zero : ∀ a, 80 ≤ a → a < 4096 → t.readByte a = 0
  fb_zero : ∀ row col, cellAt t.fb row col = false
  key_zero : ∀ k : Key, t.key[k] = false
  mode_run : t.mode = .run
  waitx_zero : t.waitx = 0
  fcause_none : t.fcause = .none
  finfo_zero : t.finfo = 0

end Sys2Proof.Machine

open Sys2Proof Sys2Proof.Machine

/-! ## Encoding -/

/-- Sanity: words of the spec's own examples (R61, R65; `95_test_vectors.md` 2.0 to 2.7) decode to
the instructions the spec names. -/
def Obligations.ExampleWordsDecodeAsNamed : Prop :=
  decodeWord 0xD12F = .drw 1 2 15 ∧ decodeWord 0x8AB6 = .shr 0xA 0xB ∧
  decodeWord 0x00EE = .ret ∧ decodeWord 0xF965 = .ldRegs 9 ∧ decodeWord 0xE0A1 = .sknp 0 ∧
  decodeWord 0x5AB1 = .unrec 0x5AB1 ∧ decodeWord 0xFFFF = .unrec 0xFFFF ∧
  decodeWord 0x1ABC = .jp 0xABC ∧ decodeWord 0x3A42 = .seImm 0xA 0x42 ∧
  decodeWord 0xA123 = .ldI 0x123 ∧ decodeWord 0xF10A = .ldVxK 1

/-- Decoding undoes encoding for every well-formed instruction and every operand. -/
def Obligations.DecodeOfEncodeIsTheInstruction : Prop :=
  ∀ i : Instr, WellFormed i = true → decodeWord (encode i) = i

/-- R65, R67: every word has exactly one meaning, which is well formed. That no bit of the word is
lost is the model's choice (log 16, DESIGN CHOICE): the catch-all keeps its word and the shifts their
ignored y field. -/
def Obligations.EncodeOfDecodeIsTheWord : Prop :=
  ∀ w : Word, WellFormed (decodeWord w) = true ∧ encode (decodeWord w) = w

/-- R65: a row is selected exactly by the words that match its mask and pattern, no word matches two
rows, and a word that matches none selects the catch-all. -/
def Obligations.DecoderFollowsTheOpcodeMap : Prop :=
  (∀ w : Word, ∀ r ∈ opcodeRows, (w &&& r.mask = r.pattern ↔ (decodeWord w).row = r.num)) ∧
  (∀ w : Word, ∀ r ∈ opcodeRows, ∀ r' ∈ opcodeRows,
    w &&& r.mask = r.pattern → w &&& r'.mask = r'.pattern → r = r') ∧
  (∀ w : Word, (∀ r ∈ opcodeRows, w &&& r.mask ≠ r.pattern) ↔ decodeWord w = .unrec w)

/-- R67 (a) to (f): exactly these words are unrecognized (the counts of R67 are not restated). -/
def Obligations.UnrecognizedWordsAreExactlyTheListedOnes : Prop :=
  ∀ w : Word, decodeWord w = .unrec w ↔
    (w.toNat / 4096 = 0x0 ∧ w ≠ 0x0000 ∧ w ≠ 0x00E0 ∧ w ≠ 0x00EE) ∨
    (w.toNat / 4096 = 0x5 ∧ w.toNat % 16 ≠ 0) ∨
    (w.toNat / 4096 = 0x8 ∧ 8 ≤ w.toNat % 16 ∧ w.toNat % 16 ≠ 0xE) ∨
    (w.toNat / 4096 = 0x9 ∧ w.toNat % 16 ≠ 0) ∨
    (w.toNat / 4096 = 0xE ∧ w.toNat % 256 ≠ 0x9E ∧ w.toNat % 256 ≠ 0xA1) ∨
    (w.toNat / 4096 = 0xF ∧ w.toNat % 256 ∉ [0x07, 0x0A, 0x15, 0x18, 0x1E, 0x29, 0x33, 0x55, 0x65])

/-- R42, R60: an instruction is two bytes, the byte at the lower address being the high byte. That
the decoder rejects fewer than two bytes as truncated is the model's choice (log 21, DESIGN
CHOICE). -/
def Obligations.InstructionBytesAreBigEndian : Prop :=
  (∀ (hi lo : Byte) (rest : List Byte) (w : Word), w.toNat = hi.toNat * 256 + lo.toNat →
    decode (hi :: lo :: rest) = .ok (decodeWord w, rest)) ∧
  (∀ bytes : List Byte, bytes.length < 2 → decode bytes = .error .truncated) ∧
  (∀ (s : State) (a : Nat),
    (s.readWord a).toNat = (s.readByte a).toNat * 256 + (s.readByte (a + 1)).toNat)

/-! ## The instruction cycle and the events -/

/-- With nothing scheduled before it, a running core whose PC can be fetched from runs the
instruction that the bytes at PC decode to, at the same state. Around `exec` the step only ends the
boot order, the model's own bookkeeping (log 7); nothing scheduled means the core is next (log 1). -/
def Obligations.StepRunsTheDecodedInstruction : Prop :=
  ∀ (s : State) (i : Instr), s.sched = [] → s.mode = .run → s.pc.toNat ≤ 0xFFE →
    decode [s.readByte s.pc.toNat, s.readByte (s.pc.toNat + 1)] = .ok (i, []) →
    WellFormed i = true ∧ step s = exec i (s.setStage .running)

/-- The Step event of R64: held outside MODE = RUN, FETCH_OOB before any decoding, else exactly one
instruction, the word at PC read big-endian. That a Step ends the boot order is the model's (log 7). -/
def Obligations.StepEventFetchesDecodesExecutes : Prop :=
  ∀ s : State,
    (s.mode ≠ .run → s.apply .step = .next s) ∧
    (s.mode = .run → 0xFFE < s.pc.toNat →
      s.apply .step = .next ((s.setStage .running).raiseFault .fetchOob s.pc)) ∧
    (s.mode = .run → s.pc.toNat ≤ 0xFFE →
      s.apply .step = exec (decodeWord (wordOfBytes (s.readByte s.pc.toNat)
        (s.readByte (s.pc.toNat + 1)))) (s.setStage .running))

/-- The model's reading of R30 and R32 (log 1): events happen one at a time in the order of the
schedule, and when it is empty the core takes a Step. -/
def Obligations.ScheduledEventsHappenInOrder : Prop :=
  ∀ s : State, (s.sched = [] → step s = s.apply .step) ∧
    (∀ e rest, s.sched = e :: rest → step s = (s.setSched rest).apply e)

/-- R202, R15: while SP is in the range it takes in every run, a Step of a running core always
gives a next state: no instruction halts or is refused. -/
def Obligations.StepOfARunningCoreIsAlwaysEnabled : Prop :=
  ∀ s : State, s.mode = .run → s.sp.toNat ≤ 16 → ∃ t, s.apply .step = .next t

/-! ## Faults -/

/-- R163: taking a fault writes FCAUSE, FINFO and MODE and nothing else; PC keeps its address. -/
def Obligations.FaultEntryChangesTheLatchAlone : Prop :=
  ∀ (s : State) (c : FaultCause) (w : Word),
    (s.raiseFault c w).fcause = c ∧ (s.raiseFault c w).finfo = w ∧
    (s.raiseFault c w).mode = .fault ∧ (s.raiseFault c w).pc = s.pc ∧
    Frame [] [.mode, .fcause, .finfo] [] s (s.raiseFault c w)

/-- R161: the codes, the conditions and the FINFO of every fault, and that nothing else faults. The
fetch fault may also end the boot order (the model's `stage`, log 7). -/
def Obligations.FaultsAreRaisedExactlyAsTheTableSays : Prop :=
  (∀ (i : Instr) (s : State) (c : FaultCause) (w : Word), specFault i s = some (c, w) →
    exec i s = .next (s.raiseFault c w)) ∧
  (∀ (i : Instr) (s t : State), specFault i s = none → exec i s = .next t →
    t.fcause = s.fcause ∧ t.finfo = s.finfo ∧ (t.mode = s.mode ∨ t.mode = .waitKey)) ∧
  (∀ s : State, s.mode = .run → 0xFFE < s.pc.toNat → ∃ t, s.apply .step = .next t ∧
    t.mode = .fault ∧ t.fcause = .fetchOob ∧ t.finfo = s.pc ∧ t.pc = s.pc ∧
    Frame [] [.mode, .fcause, .finfo, .stage] [] s t) ∧
  FaultCause.none.code = 0 ∧ FaultCause.fetchOob.code = 1 ∧ FaultCause.dataOob.code = 2 ∧
  FaultCause.stackOverflow.code = 3 ∧ FaultCause.stackUnderflow.code = 4 ∧
  FaultCause.keyIndex.code = 5 ∧ (∀ c : FaultCause, c.code ≠ 6 ∧ c.code ≠ 7)

/-- R164: in MODE = FAULT a Step does nothing, a Tick changes only the timers, a KeyEvent only
KEY, FbRead nothing, and Reset leaves the mode and clears the latch. -/
def Obligations.OnlyResetLeavesFaultMode : Prop :=
  ∀ s : State, s.mode = .fault →
    s.apply .step = .next s ∧
    (∃ t, s.apply .tick = .next t ∧ t.pc = s.pc ∧ Frame [] [.dt, .st] [] s t) ∧
    (∀ k pressed, ∃ t, s.apply (.key k pressed) = .next t ∧ t.key[k] = pressed ∧ t.pc = s.pc ∧
      Frame [] [.key] [] s t) ∧
    (s.apply .fbRead = .next s ∧ s.fbRead = s.fb) ∧
    (∃ t, s.apply .reset = .next t ∧ t.mode = .run ∧ t.fcause = .none ∧ t.finfo = 0)

/-! ## Flow (`40_flow.md`) -/

/-- R80, R85: NOP and every unrecognized word only advance PC by 2. -/
def Obligations.NoOpsOnlyAdvance : Prop :=
  decodeWord 0x0000 = .nop ∧
  (∀ w, (∀ r ∈ opcodeRows, w &&& r.mask ≠ r.pattern) → decodeWord w = .unrec w) ∧
  (∀ s : State, ∃ t, exec .nop s = .next t ∧ t.pc = s.pc + 2 ∧ Frame [] [] [] s t) ∧
  (∀ (w : Word) (s : State), ∃ t, exec (.unrec w) s = .next t ∧ t.pc = s.pc + 2 ∧
    Frame [] [] [] s t)

/-- R82, R84: the two jumps; the second adds V0 as a 16-bit sum that is not reduced to 12 bits. -/
def Obligations.JumpsSetPcAlone : Prop :=
  (∀ nnn, decodeWord (encodeNNN 0x1 nnn) = .jp nnn) ∧
  (∀ nnn, decodeWord (encodeNNN 0xB nnn) = .jpV0 nnn) ∧
  (∀ (nnn : Addr12) (s : State), ∃ t, exec (.jp nnn) s = .next t ∧ t.pc.toNat = nnn.toNat ∧
    Frame [] [] [] s t) ∧
  (∀ (nnn : Addr12) (s : State), ∃ t, exec (.jpV0 nnn) s = .next t ∧
    t.pc.toNat = nnn.toNat + (s.getV 0).toNat ∧ Frame [] [] [] s t)

/-- R83: CALL pushes its own address, raises SP by 1 and jumps; with 16 entries in use it faults
and nothing else changes. -/
def Obligations.CallPushesItsOwnAddress : Prop :=
  (∀ nnn, decodeWord (encodeNNN 0x2 nnn) = .call nnn) ∧
  ∀ (nnn : Addr12) (s : State),
    (s.sp.toNat < 16 → ∃ t, exec (.call nnn) s = .next t ∧
      (∀ j : Fin 16, t.stk[j] = if j.val = s.sp.toNat then s.pc else s.stk[j]) ∧
      t.sp.toNat = s.sp.toNat + 1 ∧ t.pc.toNat = nnn.toNat ∧ Frame [] [.sp, .stk] [] s t) ∧
    (16 ≤ s.sp.toNat → exec (.call nnn) s = .next (s.raiseFault .stackOverflow (zextByte s.sp)))

/-- R81: RET lowers SP by 1 and continues 2 after the entry it reads, which stays; with SP = 0 it
faults and nothing else changes. SP above 16 is the statement below. -/
def Obligations.RetContinuesAfterTheCall : Prop :=
  decodeWord 0x00EE = .ret ∧
  ∀ s : State,
    (∀ j : Fin 16, s.sp.toNat = j.val + 1 → ∃ t, exec .ret s = .next t ∧ t.sp.toNat = j.val ∧
      t.pc = s.stk[j] + 2 ∧ Frame [] [.sp] [] s t) ∧
    (s.sp = 0 → exec .ret s = .next (s.raiseFault .stackUnderflow 0))

/-- The model's choice (log 6): a RET with SP above 16, which no run reaches (R15), reads a stack
entry that does not exist (R48) and stops by name. -/
def Obligations.RetBeyondTheStackStops : Prop :=
  ∀ s : State, 16 < s.sp.toNat → exec .ret s = .fault .stackEntryAbsent

/-- "0x2nnn followed eventually by 0x00EE returns PC to original_call_site + 2": from any later
state with the SP that the call left and its entry still in place, the return restores SP and goes
to the call site + 2. Entries at and above the SP of the call may differ: balanced calls in between
overwrite them, and a return erases nothing (R81). -/
def Obligations.CallThenReturnComesBack : Prop :=
  ∀ (nnn : Addr12) (s t u : State), s.sp.toNat < 16 → exec (.call nnn) s = .next t →
    u.sp = t.sp → u.stk[s.sp.toNat]? = t.stk[s.sp.toNat]? →
    ∃ w, exec .ret u = .next w ∧ w.pc = s.pc + 2 ∧ w.sp = s.sp

/-! ## Skips (`41_skips.md`) -/

/-- R100, R101: skip on an immediate, all 8 bits compared; nothing but PC changes. -/
def Obligations.SkipsComparingAnImmediate : Prop :=
  (∀ x kk, decodeWord (encodeXKK 0x3 x kk) = .seImm x kk) ∧
  (∀ x kk, decodeWord (encodeXKK 0x4 x kk) = .sneImm x kk) ∧
  (∀ (x : Reg) (kk : Byte) (s : State), ∃ t, exec (.seImm x kk) s = .next t ∧
    (s.getV x = kk → t.pc = s.pc + 4) ∧ (s.getV x ≠ kk → t.pc = s.pc + 2) ∧
    Frame [] [] [] s t) ∧
  (∀ (x : Reg) (kk : Byte) (s : State), ∃ t, exec (.sneImm x kk) s = .next t ∧
    (s.getV x ≠ kk → t.pc = s.pc + 4) ∧ (s.getV x = kk → t.pc = s.pc + 2) ∧
    Frame [] [] [] s t)

/-- R102, R103: skip on two registers; nothing but PC changes. -/
def Obligations.SkipsComparingTwoRegisters : Prop :=
  (∀ x y, decodeWord (encodeXYN 0x5 x y 0x0) = .seReg x y) ∧
  (∀ x y, decodeWord (encodeXYN 0x9 x y 0x0) = .sneReg x y) ∧
  (∀ (x y : Reg) (s : State), ∃ t, exec (.seReg x y) s = .next t ∧
    (s.getV x = s.getV y → t.pc = s.pc + 4) ∧ (s.getV x ≠ s.getV y → t.pc = s.pc + 2) ∧
    Frame [] [] [] s t) ∧
  (∀ (x y : Reg) (s : State), ∃ t, exec (.sneReg x y) s = .next t ∧
    (s.getV x ≠ s.getV y → t.pc = s.pc + 4) ∧ (s.getV x = s.getV y → t.pc = s.pc + 2) ∧
    Frame [] [] [] s t)

/-! ## Register and arithmetic instructions (`42_alu.md`) -/

/-- R110, R112: load an immediate, copy a register. -/
def Obligations.LoadsAndCopiesWriteVxAlone : Prop :=
  (∀ x kk, decodeWord (encodeXKK 0x6 x kk) = .ldImm x kk) ∧
  (∀ x y, decodeWord (encodeXYN 0x8 x y 0x0) = .ldReg x y) ∧
  (∀ (x : Reg) (kk : Byte) (s : State), ∃ t, exec (.ldImm x kk) s = .next t ∧
    t.getV x = kk ∧ t.pc = s.pc + 2 ∧ Frame [x] [] [] s t) ∧
  (∀ (x y : Reg) (s : State), ∃ t, exec (.ldReg x y) s = .next t ∧
    t.getV x = s.getV y ∧ t.pc = s.pc + 2 ∧ Frame [x] [] [] s t)

/-- R111: add an immediate modulo 256; VF is not written as a flag. -/
def Obligations.AddImmediateWrapsWithoutAFlag : Prop :=
  (∀ x kk, decodeWord (encodeXKK 0x7 x kk) = .addImm x kk) ∧
  (∀ (x : Reg) (kk : Byte) (s : State), ∃ t, exec (.addImm x kk) s = .next t ∧
    (t.getV x).toNat = ((s.getV x).toNat + kk.toNat) % 256 ∧ t.pc = s.pc + 2 ∧
    Frame [x] [] [] s t)

/-- R113, R114, R115: the three logic operations, bit by bit; VF is not touched unless x = F. -/
def Obligations.LogicOperationsAreBitwise : Prop :=
  (∀ x y, decodeWord (encodeXYN 0x8 x y 0x1) = .orReg x y) ∧
  (∀ x y, decodeWord (encodeXYN 0x8 x y 0x2) = .andReg x y) ∧
  (∀ x y, decodeWord (encodeXYN 0x8 x y 0x3) = .xorReg x y) ∧
  (∀ (x y : Reg) (s : State), ∃ t, exec (.orReg x y) s = .next t ∧
    (∀ b, (t.getV x).getLsbD b = ((s.getV x).getLsbD b || (s.getV y).getLsbD b)) ∧
    t.pc = s.pc + 2 ∧ Frame [x] [] [] s t) ∧
  (∀ (x y : Reg) (s : State), ∃ t, exec (.andReg x y) s = .next t ∧
    (∀ b, (t.getV x).getLsbD b = ((s.getV x).getLsbD b && (s.getV y).getLsbD b)) ∧
    t.pc = s.pc + 2 ∧ Frame [x] [] [] s t) ∧
  (∀ (x y : Reg) (s : State), ∃ t, exec (.xorReg x y) s = .next t ∧
    (∀ b, (t.getV x).getLsbD b = ((s.getV x).getLsbD b ^^ (s.getV y).getLsbD b)) ∧
    t.pc = s.pc + 2 ∧ Frame [x] [] [] s t)

/-- R116: the sum modulo 256 and the carry, both from the values at the start; with x = F the sum
stands. -/
def Obligations.AddRegistersWritesSumAndCarry : Prop :=
  (∀ x y, decodeWord (encodeXYN 0x8 x y 0x4) = .addReg x y) ∧
  (∀ (x y : Reg) (s : State), ∃ t, exec (.addReg x y) s = .next t ∧
    (t.getV x).toNat = ((s.getV x).toNat + (s.getV y).toNat) % 256 ∧
    (x ≠ 15 → 255 < (s.getV x).toNat + (s.getV y).toNat → t.getV 15 = 1) ∧
    (x ≠ 15 → (s.getV x).toNat + (s.getV y).toNat ≤ 255 → t.getV 15 = 0) ∧
    t.pc = s.pc + 2 ∧ Frame [x, 15] [] [] s t)

/-- R117, R119: the difference modulo 256, and VF = 1 exactly when the minuend is strictly greater;
with x = F the difference stands. -/
def Obligations.SubtractionsWriteDifferenceAndGreater : Prop :=
  (∀ x y, decodeWord (encodeXYN 0x8 x y 0x5) = .subReg x y) ∧
  (∀ x y, decodeWord (encodeXYN 0x8 x y 0x7) = .subnReg x y) ∧
  (∀ (x y : Reg) (s : State), ∃ t, exec (.subReg x y) s = .next t ∧
    (t.getV x).toNat = ((s.getV x).toNat + 256 - (s.getV y).toNat) % 256 ∧
    (x ≠ 15 → (s.getV y).toNat < (s.getV x).toNat → t.getV 15 = 1) ∧
    (x ≠ 15 → (s.getV x).toNat ≤ (s.getV y).toNat → t.getV 15 = 0) ∧
    t.pc = s.pc + 2 ∧ Frame [x, 15] [] [] s t) ∧
  (∀ (x y : Reg) (s : State), ∃ t, exec (.subnReg x y) s = .next t ∧
    (t.getV x).toNat = ((s.getV y).toNat + 256 - (s.getV x).toNat) % 256 ∧
    (x ≠ 15 → (s.getV x).toNat < (s.getV y).toNat → t.getV 15 = 1) ∧
    (x ≠ 15 → (s.getV y).toNat ≤ (s.getV x).toNat → t.getV 15 = 0) ∧
    t.pc = s.pc + 2 ∧ Frame [x, 15] [] [] s t)

/-- R118, R120 (and R68): the one-bit shifts of Vx, whatever y is, and the bit shifted out; with
x = F the result stands. -/
def Obligations.ShiftsMoveVxByOneBit : Prop :=
  (∀ x y, decodeWord (encodeXYN 0x8 x y 0x6) = .shr x y) ∧
  (∀ x y, decodeWord (encodeXYN 0x8 x y 0xE) = .shl x y) ∧
  (∀ (x y : Reg) (s : State), ∃ t, exec (.shr x y) s = .next t ∧
    (t.getV x).toNat = (s.getV x).toNat / 2 ∧
    (x ≠ 15 → (t.getV 15).toNat = (s.getV x).toNat % 2) ∧
    t.pc = s.pc + 2 ∧ Frame [x, 15] [] [] s t) ∧
  (∀ (x y : Reg) (s : State), ∃ t, exec (.shl x y) s = .next t ∧
    (t.getV x).toNat = (s.getV x).toNat * 2 % 256 ∧
    (x ≠ 15 → (t.getV 15).toNat = (s.getV x).toNat / 128) ∧
    t.pc = s.pc + 2 ∧ Frame [x, 15] [] [] s t)

/-- R121, R174 in the model's form of the random input, a free value of a counter (log 2): Vx is
`kk & rand`, and the draw is consumed. It holds for every value of the draw. -/
def Obligations.RandomLoadMasksTheDraw : Prop :=
  (∀ x kk, decodeWord (encodeXKK 0xC x kk) = .rnd x kk) ∧
  (∀ (x : Reg) (kk : Byte) (s : State), ∃ t, exec (.rnd x kk) s = .next t ∧
    t.getV x = kk &&& Config.randomByte s.draws ∧
    (∀ b, kk.getLsbD b = false → (t.getV x).getLsbD b = false) ∧
    t.draws = s.draws + 1 ∧ t.pc = s.pc + 2 ∧ Frame [x] [.draws] [] s t)

/-- R174 "Only 0xCxkk uses the value", in the model's form (log 2): no other instruction consumes a
draw or behaves differently for another count of draws. -/
def Obligations.OnlyRandomLoadUsesTheDraws : Prop :=
  ∀ (i : Instr) (s t : State) (d : Nat), (∀ x kk, i ≠ .rnd x kk) → exec i s = .next t →
    t.draws = s.draws ∧ exec i { s with draws := d } = .next { t with draws := d }

/-- R12: VF changes only under the six flag-writing instructions or where an instruction names it
as a register it writes; a flag is exactly 0 or 1. -/
def Obligations.VfChangesOnlyAsFlagOrDestination : Prop :=
  (∀ (i : Instr) (s t : State), exec i s = .next t → t.getV 15 ≠ s.getV 15 →
    writesFlag i = true ∨ namesVfAsDestination i = true) ∧
  (∀ (i : Instr) (s t : State), exec i s = .next t → writesFlag i = true →
    namesVfAsDestination i = false → specFault i s = none → t.getV 15 = 0 ∨ t.getV 15 = 1)

/-! ## Index register and memory (`43_index_memory.md`, `20_memory.md`) -/

/-- R130, R131, R132: the three instructions that set I and touch nothing else; the sum wraps
modulo 65536, the whole byte is multiplied by 5. -/
def Obligations.IndexRegisterInstructions : Prop :=
  (∀ nnn, decodeWord (encodeNNN 0xA nnn) = .ldI nnn) ∧
  (∀ x, decodeWord (encodeXKK 0xF x 0x1E) = .addI x) ∧
  (∀ x, decodeWord (encodeXKK 0xF x 0x29) = .ldF x) ∧
  (∀ (nnn : Addr12) (s : State), ∃ t, exec (.ldI nnn) s = .next t ∧ t.i.toNat = nnn.toNat ∧
    t.pc = s.pc + 2 ∧ Frame [] [.i] [] s t) ∧
  (∀ (x : Reg) (s : State), ∃ t, exec (.addI x) s = .next t ∧
    t.i.toNat = (s.i.toNat + (s.getV x).toNat) % 65536 ∧ t.pc = s.pc + 2 ∧
    Frame [] [.i] [] s t) ∧
  (∀ (x : Reg) (s : State), ∃ t, exec (.ldF x) s = .next t ∧
    t.i.toNat = (s.getV x).toNat * 5 ∧ t.pc = s.pc + 2 ∧ Frame [] [.i] [] s t)

/-- R133: three decimal digits at I, I + 1, I + 2, or DATA_OOB with nothing stored. That a stored
byte reads back needs memory in its canonical form, an invariant of the machine. -/
def Obligations.BcdStoresThreeDigits : Prop :=
  (∀ x, decodeWord (encodeXKK 0xF x 0x33) = .ldB x) ∧
  ∀ (x : Reg) (s : State),
    (s.i.toNat + 2 ≤ 0xFFF → ∃ t, exec (.ldB x) s = .next t ∧
      (Memory.wf s.mem = true →
        (t.readByte (s.dataAddr 0)).toNat = (s.getV x).toNat / 100 ∧
        (t.readByte (s.dataAddr 1)).toNat = (s.getV x).toNat / 10 % 10 ∧
        (t.readByte (s.dataAddr 2)).toNat = (s.getV x).toNat % 10) ∧
      t.pc = s.pc + 2 ∧ Frame [] [] (s.dataAddrs 3) s t) ∧
    (0xFFF < s.i.toNat + 2 → exec (.ldB x) s = .next (s.raiseFault .dataOob s.i))

/-- R134: V0..Vx at ascending addresses from I, then I past them, or DATA_OOB with nothing stored. -/
def Obligations.StoreRegistersStoresV0ToVx : Prop :=
  (∀ x, decodeWord (encodeXKK 0xF x 0x55) = .stRegs x) ∧
  ∀ (x : Reg) (s : State),
    (s.i.toNat + x.val ≤ 0xFFF → ∃ t, exec (.stRegs x) s = .next t ∧
      (Memory.wf s.mem = true → ∀ j : Reg, j ≤ x → t.readByte (s.dataAddr j.val) = s.getV j) ∧
      t.i.toNat = (s.i.toNat + x.val + 1) % 65536 ∧ t.pc = s.pc + 2 ∧
      Frame [] [.i] (s.dataAddrs (x.val + 1)) s t) ∧
    (0xFFF < s.i.toNat + x.val → exec (.stRegs x) s = .next (s.raiseFault .dataOob s.i))

/-- R135: V0..Vx from ascending addresses from I, then I past them, or DATA_OOB with no register
loaded. -/
def Obligations.LoadRegistersLoadsV0ToVx : Prop :=
  (∀ x, decodeWord (encodeXKK 0xF x 0x65) = .ldRegs x) ∧
  ∀ (x : Reg) (s : State),
    (s.i.toNat + x.val ≤ 0xFFF → ∃ t, exec (.ldRegs x) s = .next t ∧
      (∀ j : Reg, j ≤ x → t.getV j = s.readByte (s.dataAddr j.val)) ∧
      t.i.toNat = (s.i.toNat + x.val + 1) % 65536 ∧ t.pc = s.pc + 2 ∧
      Frame (regsUpTo x) [.i] [] s t) ∧
    (0xFFF < s.i.toNat + x.val → exec (.ldRegs x) s = .next (s.raiseFault .dataOob s.i))

/-- The store and load round trip (`95_test_vectors.md` P-b): whatever happened to the registers in
between, loading back from the same I gives the registers that were stored, and I ends alike. -/
def Obligations.StoreThenLoadRestoresRegisters : Prop :=
  ∀ (x : Reg) (s t u : State), Memory.wf s.mem = true → s.i.toNat + x.val ≤ 0xFFF →
    exec (.stRegs x) s = .next t →
    (∀ a ∈ s.dataAddrs (x.val + 1), u.readByte a = t.readByte a) → u.i = s.i →
    ∃ w, exec (.ldRegs x) u = .next w ∧ (∀ j : Reg, j ≤ x → w.getV j = s.getV j) ∧
      w.i = t.i ∧ w.i.toNat = s.i.toNat + x.val + 1

/-- R54, R42: what 0xFx33 or 0xFx55 stores is seen by the next fetch, wherever in memory that fetch
is: each byte of the fetched word is the byte stored at its address, or the old byte where nothing
was stored. That the Step ends the boot order is the model's bookkeeping (log 7). That a stored byte
reads back needs memory in its canonical form, an invariant of the machine (log 5). -/
def Obligations.StoredBytesAreFetchedNext : Prop :=
  (∀ (x : Reg) (s t u : State), Memory.wf s.mem = true → s.i.toNat + x.val ≤ 0xFFF →
    exec (.stRegs x) s = .next t → u.mem = t.mem → u.mode = .run → u.pc.toNat ≤ 0xFFE →
    u.apply .step = exec (decodeWord (wordOfBytes
      (s.afterStore (storedRegs s x) u.pc.toNat)
      (s.afterStore (storedRegs s x) (u.pc.toNat + 1)))) (u.setStage .running)) ∧
  (∀ (x : Reg) (s t u : State), Memory.wf s.mem = true → s.i.toNat + 2 ≤ 0xFFF →
    exec (.ldB x) s = .next t → u.mem = t.mem → u.mode = .run → u.pc.toNat ≤ 0xFFE →
    u.apply .step = exec (decodeWord (wordOfBytes
      (s.afterStore (storedDigits s x) u.pc.toNat)
      (s.afterStore (storedDigits s x) (u.pc.toNat + 1)))) (u.setStage .running))

/-- The canonical form of memory is canonical: two memories in it that read alike at every address
of the machine are equal (the model's representation, log 5). -/
def Obligations.MemoriesThatReadAlikeAreEqual : Prop :=
  ∀ m m' : Memory, Memory.wf m = true → Memory.wf m' = true →
    (∀ a, a < 4096 → readCell m a = readCell m' a) → m = m'

/-! ## Framebuffer (`44_display.md`) -/

/-- R140: every cell 0, nothing else but PC. -/
def Obligations.ClearBlanksEveryCell : Prop :=
  decodeWord 0x00E0 = .cls ∧
  ∀ s : State, ∃ t, exec .cls s = .next t ∧ (∀ row col, cellAt t.fb row col = false) ∧
    t.pc = s.pc + 2 ∧ Frame [] [.fb] [] s t

/-- R141 with the pixel mapping of R142: the cells that a set bit falls on are toggled and no other,
VF is 1 exactly when one of them was set before, or DATA_OOB with nothing drawn. The pixel mapping
is marked general knowledge in the spec itself (log 20). -/
def Obligations.DrawTogglesTheSpriteAndReportsCollision : Prop :=
  (∀ x y n, decodeWord (encodeXYN 0xD x y (fieldBits n)) = .drw x y n) ∧
  ∀ (x y : Reg) (n : Fin 16) (s : State),
    (n.val = 0 ∨ s.i.toNat + n.val - 1 ≤ 0xFFF → ∃ t, exec (.drw x y n) s = .next t ∧
      (∀ row col, spriteCovers s x y n.val row col → cellAt t.fb row col = !cellAt s.fb row col) ∧
      (∀ row col, ¬ spriteCovers s x y n.val row col → cellAt t.fb row col = cellAt s.fb row col) ∧
      ((∃ row col, spriteCovers s x y n.val row col ∧ cellAt s.fb row col = true) →
        t.getV 15 = 1) ∧
      ((∀ row col, spriteCovers s x y n.val row col → cellAt s.fb row col = false) →
        t.getV 15 = 0) ∧
      t.pc = s.pc + 2 ∧ Frame [15] [.fb] [] s t) ∧
    (1 ≤ n.val → 0xFFF < s.i.toNat + n.val - 1 →
      exec (.drw x y n) s = .next (s.raiseFault .dataOob s.i))

/-- Drawing twice at the same place restores the framebuffer (`95_test_vectors.md` P-a), and VF then
says whether a set bit fell on a cell that was 0 before the first draw. As in P-a, x and y are not F:
there the first draw rewrites a coordinate. Which cells a set bit falls on is the pixel mapping that
the spec marks as general knowledge (log 20, PRESUMED). -/
def Obligations.DrawingTwiceRestoresTheFramebuffer : Prop :=
  ∀ (x y : Reg) (n : Fin 16) (s t u : State), x ≠ 15 → y ≠ 15 →
    (n.val = 0 ∨ s.i.toNat + n.val - 1 ≤ 0xFFF) →
    exec (.drw x y n) s = .next t → exec (.drw x y n) t = .next u →
    u.fb = s.fb ∧
    (u.getV 15 = 1 ↔
      ∃ row col, spriteCovers s x y n.val row col ∧ cellAt s.fb row col = false)

/-- R143: no two pixels of a sprite of at most 15 rows fall on one cell. -/
def Obligations.SpritePixelsFallOnDistinctCells : Prop :=
  ∀ (x0 y0 : Byte) (bytes : List Byte), bytes.length ≤ 15 →
    (spriteCells x0 y0 0 bytes).Nodup

/-! ## Keys, timers, events (`45_input_timers.md`, `60_exceptions.md`) -/

/-- R150, R151: skip on the level of the key whose code is the whole of Vx, or KEY_INDEX above 0xF. -/
def Obligations.KeySkipsTestTheKeyLevel : Prop :=
  (∀ x, decodeWord (encodeXKK 0xE x 0x9E) = .skp x) ∧
  (∀ x, decodeWord (encodeXKK 0xE x 0xA1) = .sknp x) ∧
  (∀ (x : Reg) (k : Key) (s : State), (s.getV x).toNat = k.val →
    ∃ t, exec (.skp x) s = .next t ∧ (s.key[k] = true → t.pc = s.pc + 4) ∧
      (s.key[k] = false → t.pc = s.pc + 2) ∧ Frame [] [] [] s t) ∧
  (∀ (x : Reg) (k : Key) (s : State), (s.getV x).toNat = k.val →
    ∃ t, exec (.sknp x) s = .next t ∧ (s.key[k] = false → t.pc = s.pc + 4) ∧
      (s.key[k] = true → t.pc = s.pc + 2) ∧ Frame [] [] [] s t) ∧
  (∀ (x : Reg) (s : State), 0xF < (s.getV x).toNat →
    exec (.skp x) s = .next (s.raiseFault .keyIndex (zextByte (s.getV x))) ∧
    exec (.sknp x) s = .next (s.raiseFault .keyIndex (zextByte (s.getV x))))

/-- R152: the Step of LD Vx, K only enters the wait, a key already held included; while it lasts a
Step does nothing and a release only clears its key; a press writes the key's code to Vx, adds 2 to
PC and the core runs. -/
def Obligations.KeyWaitLastsUntilAPress : Prop :=
  (∀ x, decodeWord (encodeXKK 0xF x 0x0A) = .ldVxK x) ∧
  ∀ (x : Reg) (s : State), ∃ t, exec (.ldVxK x) s = .next t ∧
    t.mode = .waitKey ∧ t.waitx = x ∧ t.pc = s.pc ∧ Frame [] [.mode, .waitx] [] s t ∧
    t.apply .step = .next t ∧
    (∀ k : Key, ∃ u, t.apply (.key k false) = .next u ∧ u.key[k] = false ∧ u.pc = t.pc ∧
      Frame [] [.key] [] t u) ∧
    (∀ k : Key, ∃ u, t.apply (.key k true) = .next u ∧ u.key[k] = true ∧
      (u.getV x).toNat = k.val ∧ u.pc = s.pc + 2 ∧ u.mode = .run ∧
      Frame [x] [.key, .mode] [] t u)

/-- R153, R154, R155: the three timer instructions. -/
def Obligations.TimerInstructionsMoveOneByte : Prop :=
  (∀ x, decodeWord (encodeXKK 0xF x 0x07) = .ldVxDt x) ∧
  (∀ x, decodeWord (encodeXKK 0xF x 0x15) = .ldDtVx x) ∧
  (∀ x, decodeWord (encodeXKK 0xF x 0x18) = .ldStVx x) ∧
  (∀ (x : Reg) (s : State), ∃ t, exec (.ldVxDt x) s = .next t ∧ t.getV x = s.dt ∧
    t.pc = s.pc + 2 ∧ Frame [x] [] [] s t) ∧
  (∀ (x : Reg) (s : State), ∃ t, exec (.ldDtVx x) s = .next t ∧ t.dt = s.getV x ∧
    t.pc = s.pc + 2 ∧ Frame [] [.dt] [] s t) ∧
  (∀ (x : Reg) (s : State), ∃ t, exec (.ldStVx x) s = .next t ∧ t.st = s.getV x ∧
    t.pc = s.pc + 2 ∧ Frame [] [.st] [] s t)

/-- R168: a Tick, in every MODE, takes 1 from each timer that is not 0 and changes nothing else. -/
def Obligations.TickDecrementsBothTimers : Prop :=
  ∀ s : State, ∃ t, s.apply .tick = .next t ∧
    (s.dt ≠ 0 → t.dt.toNat + 1 = s.dt.toNat) ∧ (s.dt = 0 → t.dt = 0) ∧
    (s.st ≠ 0 → t.st.toNat + 1 = s.st.toNat) ∧ (s.st = 0 → t.st = 0) ∧
    t.pc = s.pc ∧ Frame [] [.dt, .st] [] s t

/-- After `k` Ticks with no write in between a timer that held t holds max(t - k, 0)
(`95_test_vectors.md` P-c). -/
def Obligations.TicksCountDownAndStopAtZero : Prop :=
  ∀ (k : Nat) (s : State), (State.tick^[k] s).dt.toNat = s.dt.toNat - k ∧
    (State.tick^[k] s).st.toNat = s.st.toNat - k

/-- R171, R172: a key event sets its key's level; a press during a key wait also completes it. -/
def Obligations.KeyEventsSetTheKeyAndEndTheWait : Prop :=
  ∀ (s : State) (k : Key) (pressed : Bool), ∃ t, s.apply (.key k pressed) = .next t ∧
    (∀ j : Key, t.key[j] = if j = k then pressed else s.key[j]) ∧
    (¬(pressed = true ∧ s.mode = .waitKey) → t.pc = s.pc ∧ Frame [] [.key] [] s t) ∧
    (pressed = true → s.mode = .waitKey → (t.getV s.waitx).toNat = k.val ∧ t.pc = s.pc + 2 ∧
      t.mode = .run ∧ Frame [s.waitx] [.key, .mode] [] s t)

/-- R22: the transitions of MODE, and that there are no others; outside RUN a Step has no effect. The
fault clause gives the whole next state, in which the Step has also ended the boot order, the model's
own bookkeeping (log 7, DEDUCED). -/
def Obligations.ModeChangesOnlyAsListed : Prop :=
  State.reset.mode = .run ∧
  (∀ s : State, ∃ t, s.apply .reset = .next t ∧ t.mode = .run) ∧
  (∀ (s : State) (k : Key), s.mode = .waitKey →
    ∃ t, s.apply (.key k true) = .next t ∧ t.mode = .run) ∧
  (∀ (s : State) (c : FaultCause) (w : Word), (s.raiseFault c w).mode = .fault) ∧
  (∀ s : State, s.mode ≠ .run → s.apply .step = .next s) ∧
  (∀ (s t : State) (e : Event), s.apply e = .next t → e ≠ .reset → t.mode ≠ s.mode →
    (t.mode = .waitKey → e = .step ∧ s.mode = .run ∧ s.pc.toNat ≤ 0xFFE ∧
      ∃ x, decodeWord s.fetchWord = .ldVxK x) ∧
    (t.mode = .run → s.mode = .waitKey ∧ ∃ k, e = .key k true) ∧
    (t.mode = .fault → e = .step ∧ s.mode = .run ∧
      ∃ c w, t = (s.setStage .running).raiseFault c w)) ∧
  (∀ (s : State) (x : Reg), s.mode = .run → s.pc.toNat ≤ 0xFFE →
    decodeWord s.fetchWord = .ldVxK x → ∃ t, s.apply .step = .next t ∧ t.mode = .waitKey)

/-- R170, R173: `sound_active` is 1 exactly when ST is not 0; FbRead returns the cells and changes
nothing. The status outputs are MODE, the code of FCAUSE, and FINFO. -/
def Obligations.OutputsShowTheState : Prop :=
  ∀ s : State, (s.soundActive = true ↔ s.st ≠ 0) ∧ s.apply .fbRead = .next s ∧
    (∀ (row : Fin 32) (col : Fin 64), s.fbRead[row][col] = cellAt s.fb row col) ∧
    s.statusOutputs = (s.mode, s.fcause.code, s.finfo)

/-- R31: who may write what, Reset and Load apart. The boot bookkeeping is not among the written
state. -/
def Obligations.OnlyTheNamedAgentsWrite : Prop :=
  ∀ (s t : State) (e : Event), s.apply e = .next t → e ≠ .reset →
    ((∀ k pressed, e ≠ .key k pressed) → t.key = s.key) ∧
    (e ≠ .step → t.i = s.i ∧ t.sp = s.sp ∧ t.stk = s.stk ∧ t.fb = s.fb) ∧
    (e ≠ .step → (∀ image, e ≠ .load image) → t.mem = s.mem) ∧
    (e ≠ .step → ¬(s.mode = .waitKey ∧ ∃ k, e = .key k true) → t.v = s.v ∧ t.pc = s.pc) ∧
    (t.dt ≠ s.dt → e = .tick ∨ (e = .step ∧ ∃ x, decodeWord s.fetchWord = .ldDtVx x)) ∧
    (t.st ≠ s.st → e = .tick ∨ (e = .step ∧ ∃ x, decodeWord s.fetchWord = .ldStVx x)) ∧
    (t.mode ≠ s.mode → e = .step ∨ (s.mode = .waitKey ∧ ∃ k, e = .key k true)) ∧
    (t.waitx ≠ s.waitx → e = .step ∧ decodeWord s.fetchWord = .ldVxK t.waitx) ∧
    (t.fcause ≠ s.fcause ∨ t.finfo ≠ s.finfo → e = .step ∧ s.mode = .run ∧ t.mode = .fault)

/-- R32 (c), R51: an instruction that touches no timer gives the same result whether a Tick falls
before or after it. -/
def Obligations.TicksCommuteWithOtherInstructions : Prop :=
  ∀ (i : Instr) (s t : State), touchesTimer i = false → exec i s = .next t →
    exec i s.tick = .next t.tick

/-- R18 "No instruction reads ST": with another sound timer every instruction does the same to
everything but ST. -/
def Obligations.NoInstructionReadsTheSoundTimer : Prop :=
  ∀ (i : Instr) (s t : State) (b : Byte), exec i s = .next t →
    ∃ u, exec i (s.setSt b) = .next u ∧ u.setSt 0 = t.setSt 0 ∧
      ((∀ x, i ≠ .ldStVx x) → u.st = b ∧ t.st = s.st)

/-! ## PC, reset, load, quiescence -/

/-- R70: the PC behaviour of every row, by the row numbers of R65; a faulting instruction leaves
PC unchanged. -/
def Obligations.PcBehaviourOfEveryRow : Prop :=
  ∀ (i : Instr) (s t : State), exec i s = .next t →
    (specFault i s ≠ none → t.pc = s.pc) ∧
    (specFault i s = none →
      (i.row ∈ [1, 2, 9, 10, 11, 12, 13, 14, 15, 16, 17, 18, 19, 21, 23, 24, 27] →
        t.pc = s.pc + 2) ∧
      (29 ≤ i.row → t.pc = s.pc + 2) ∧
      (i.row ∈ [6, 7, 8, 20, 25, 26] → t.pc = s.pc + 2 ∨ t.pc = s.pc + 4) ∧
      (i.row = 3 → ∃ entry, s.stk[t.sp.toNat]? = some entry ∧ t.pc = entry + 2) ∧
      (∀ nnn, i = .jp nnn ∨ i = .call nnn → t.pc.toNat = nnn.toNat) ∧
      (∀ nnn, i = .jpV0 nnn → t.pc.toNat = nnn.toNat + (s.getV 0).toNat) ∧
      (i.row = 28 → t.pc = s.pc))

/-- R29, R190: the state after reset, and after the Reset event in any state whatever. -/
def Obligations.ResetGivesEveryPieceItsValue : Prop :=
  Config.fontset.length = 80 ∧ AtReset State.reset ∧
  ∀ s : State, ∃ t, s.apply .reset = .next t ∧ AtReset t

/-- R193: Load copies the image to 0x200 and up and changes nothing else; a longer image is refused.
When a Load may happen is the model's `stage` (log 7); the refusal ends the model's run (log 8). -/
def Obligations.LoadCopiesTheImage : Prop :=
  ∀ (s : State) (image : List Byte), s.stage = .fresh →
    (image.length ≤ 3584 → ∃ t, s.apply (.load image) = .next t ∧
      (Memory.wf s.mem = true → ∀ (j : Nat) (h : j < image.length),
        t.readByte (0x200 + j) = image[j]) ∧
      t.stage = .loaded ∧ t.pc = s.pc ∧
      Frame [] [.stage] ((List.range image.length).map (0x200 + ·)) s t) ∧
    (3584 < image.length → s.apply (.load image) = .refused .imageTooLong)

/-- The model's reading of R179 and R193 (log 7): a Load is refused after another Load and after the
first Step, and only Reset makes it possible again. -/
def Obligations.LoadIsRefusedOutOfOrder : Prop :=
  (∀ (s : State) (image : List Byte), s.stage ≠ .fresh →
    s.apply (.load image) = .refused .loadOutOfOrder) ∧
  (∀ s t : State, s.mode = .run → s.apply .step = .next t → t.stage = .running) ∧
  (∀ (s t : State) (e : Event), s.apply e = .next t → s.stage ≠ .fresh → t.stage = .fresh →
    e = .reset)

/-- R203: a Step of a running core leaves the state as it is (the boot bookkeeping of log 7 apart)
exactly at a self-jump `JP pc`, or at `JP V0, nnn` with nnn + V0 = pc. -/
def Obligations.QuiescentExactlyAtSelfJumps : Prop :=
  ∀ s : State, s.mode = .run →
    (s.quiescent ↔ s.pc.toNat ≤ 0xFFE ∧
      ((∃ nnn, decodeWord s.fetchWord = .jp nnn ∧ nnn.toNat = s.pc.toNat) ∨
       (∃ nnn, decodeWord s.fetchWord = .jpV0 nnn ∧
          nnn.toNat + (s.getV 0).toNat = s.pc.toNat)))

/-! ## The invariant -/

/-- The invariant (SP in 0..16, stack entries and PC in range, the wait and the fault latch
consistent) holds at reset, whatever is scheduled. Two of its clauses are the model's: the canonical
form of memory (log 5, DESIGN CHOICE) and that the boot order ends before a wait or a fault (log 7,
DEDUCED). -/
def Obligations.InvariantHoldsAtReset : Prop :=
  ∀ events : List Event, Inv (State.reset.setSched events)

/-- Every event of the machine keeps the invariant: the ranges of PC, SP and the stack, the wait and
the fault latch (R14, R15, R16, R22, R23, R24). Two of its clauses are the model's: the canonical form
of memory (log 5, DESIGN CHOICE) and that the boot order ends before a wait or a fault (log 7,
DEDUCED). -/
def Obligations.EveryStepKeepsTheInvariant : Prop :=
  ∀ s t : State, Inv s → step s = .next t → Inv t
end

