-- ==== Sys2Proof/Laws/Decode.lean ====
section
/-! SUPPORT. The fields of an instruction word as numbers; reading a field out of a word put
together from fields, and putting a word together from its own fields (`30_encoding.md` R61, R62). -/

namespace Sys2Proof

@[simp] theorem fieldIndex_fieldBits (x : Fin 16) : fieldIndex (fieldBits x) = x := rfl

@[simp] theorem fieldBits_fieldIndex (b : BitVec 4) : fieldBits (fieldIndex b) = b := rfl

@[simp] theorem fieldBits_toNat (x : Fin 16) : (fieldBits x).toNat = x.val := rfl

theorem append_toNat {m n : Nat} (a : BitVec m) (b : BitVec n) :
    (a ++ b).toNat = a.toNat * 2 ^ n + b.toNat := by
  rw [BitVec.toNat_append, Nat.shiftLeft_eq, Nat.mul_comm, Nat.two_pow_add_eq_or_of_lt b.isLt]

/-! ## Fields and formats as numbers -/

theorem topOf_toNat (w : Word) : (topOf w).toNat = w.toNat / 4096 := by
  have := w.isLt
  simp only [topOf, BitVec.extractLsb'_toNat, Nat.shiftRight_eq_div_pow]
  omega

theorem xBits_toNat (w : Word) : (xBits w).toNat = w.toNat / 256 % 16 := by
  simp [xBits, BitVec.extractLsb'_toNat, Nat.shiftRight_eq_div_pow]

theorem yBits_toNat (w : Word) : (yBits w).toNat = w.toNat / 16 % 16 := by
  simp [yBits, BitVec.extractLsb'_toNat, Nat.shiftRight_eq_div_pow]

theorem nBits_toNat (w : Word) : (nBits w).toNat = w.toNat % 16 := by
  simp [nBits, BitVec.extractLsb'_toNat]

theorem kkOf_toNat (w : Word) : (kkOf w).toNat = w.toNat % 256 := by
  simp [kkOf, BitVec.extractLsb'_toNat]

theorem nnnOf_toNat (w : Word) : (nnnOf w).toNat = w.toNat % 4096 := by
  simp [nnnOf, BitVec.extractLsb'_toNat]

theorem xOf_val (w : Word) : (xOf w).val = w.toNat / 256 % 16 := xBits_toNat w

theorem yOf_val (w : Word) : (yOf w).val = w.toNat / 16 % 16 := yBits_toNat w

theorem nOf_val (w : Word) : (nOf w).val = w.toNat % 16 := nBits_toNat w

theorem encodeNNN_toNat (t : BitVec 4) (a : Addr12) :
    (encodeNNN t a).toNat = t.toNat * 4096 + a.toNat := append_toNat t a

theorem encodeXKK_toNat (t : BitVec 4) (x : Reg) (k : Byte) :
    (encodeXKK t x k).toNat = t.toNat * 4096 + x.val * 256 + k.toNat := by
  have h := append_toNat (t ++ fieldBits x) k
  have h' := append_toNat t (fieldBits x)
  rw [h'] at h
  rw [fieldBits_toNat] at h
  exact h.trans (by omega)

theorem encodeXYN_toNat (t : BitVec 4) (x y : Reg) (n : BitVec 4) :
    (encodeXYN t x y n).toNat = t.toNat * 4096 + x.val * 256 + y.val * 16 + n.toNat := by
  have h := append_toNat (t ++ fieldBits x ++ fieldBits y) n
  rw [append_toNat (t ++ fieldBits x) (fieldBits y), append_toNat t (fieldBits x)] at h
  simp only [fieldBits_toNat] at h
  exact h.trans (by omega)

/-! ## Reading a field out of a word put together from fields -/

@[simp] theorem topOf_encodeNNN (t : BitVec 4) (a : Addr12) : topOf (encodeNNN t a) = t := by
  apply BitVec.eq_of_toNat_eq
  have := a.isLt
  rw [topOf_toNat, encodeNNN_toNat]
  omega

@[simp] theorem nnnOf_encodeNNN (t : BitVec 4) (a : Addr12) : nnnOf (encodeNNN t a) = a := by
  apply BitVec.eq_of_toNat_eq
  have := a.isLt
  rw [nnnOf_toNat, encodeNNN_toNat]
  omega

@[simp] theorem topOf_encodeXKK (t : BitVec 4) (x : Reg) (k : Byte) :
    topOf (encodeXKK t x k) = t := by
  apply BitVec.eq_of_toNat_eq
  have := k.isLt
  have := x.isLt
  rw [topOf_toNat, encodeXKK_toNat]
  omega

@[simp] theorem xOf_encodeXKK (t : BitVec 4) (x : Reg) (k : Byte) : xOf (encodeXKK t x k) = x := by
  apply Fin.ext
  have := k.isLt
  have := x.isLt
  rw [xOf_val, encodeXKK_toNat]
  omega

@[simp] theorem kkOf_encodeXKK (t : BitVec 4) (x : Reg) (k : Byte) :
    kkOf (encodeXKK t x k) = k := by
  apply BitVec.eq_of_toNat_eq
  have := k.isLt
  rw [kkOf_toNat, encodeXKK_toNat]
  omega

@[simp] theorem topOf_encodeXYN (t : BitVec 4) (x y : Reg) (n : BitVec 4) :
    topOf (encodeXYN t x y n) = t := by
  apply BitVec.eq_of_toNat_eq
  have := n.isLt
  have := x.isLt
  have := y.isLt
  rw [topOf_toNat, encodeXYN_toNat]
  omega

@[simp] theorem xOf_encodeXYN (t : BitVec 4) (x y : Reg) (n : BitVec 4) :
    xOf (encodeXYN t x y n) = x := by
  apply Fin.ext
  have := n.isLt
  have := x.isLt
  have := y.isLt
  rw [xOf_val, encodeXYN_toNat]
  omega

@[simp] theorem yOf_encodeXYN (t : BitVec 4) (x y : Reg) (n : BitVec 4) :
    yOf (encodeXYN t x y n) = y := by
  apply Fin.ext
  have := n.isLt
  have := x.isLt
  have := y.isLt
  rw [yOf_val, encodeXYN_toNat]
  omega

@[simp] theorem nBits_encodeXYN (t : BitVec 4) (x y : Reg) (n : BitVec 4) :
    nBits (encodeXYN t x y n) = n := by
  apply BitVec.eq_of_toNat_eq
  have := n.isLt
  rw [nBits_toNat, encodeXYN_toNat]
  omega

@[simp] theorem nOf_encodeXYN (t : BitVec 4) (x y : Reg) (n : Fin 16) :
    nOf (encodeXYN t x y (fieldBits n)) = n := by
  simp [nOf]

/-! ## Putting a word together from its own fields -/

theorem encodeNNN_fields (w : Word) : encodeNNN (topOf w) (nnnOf w) = w := by
  apply BitVec.eq_of_toNat_eq
  rw [encodeNNN_toNat, topOf_toNat, nnnOf_toNat]
  omega

theorem encodeXKK_fields (w : Word) : encodeXKK (topOf w) (xOf w) (kkOf w) = w := by
  apply BitVec.eq_of_toNat_eq
  rw [encodeXKK_toNat, topOf_toNat, xOf_val, kkOf_toNat]
  omega

theorem encodeXYN_fields (w : Word) : encodeXYN (topOf w) (xOf w) (yOf w) (nBits w) = w := by
  apply BitVec.eq_of_toNat_eq
  rw [encodeXYN_toNat, topOf_toNat, xOf_val, yOf_val, nBits_toNat]
  omega

/-! ## Bytes (R42) -/

/-- The byte at the lower address is the high byte. -/
theorem wordOfBytes_toNat (hi lo : Byte) :
    (wordOfBytes hi lo).toNat = hi.toNat * 256 + lo.toNat := append_toNat hi lo

/-- The bytes of a word, put together, are the word. -/
theorem wordOfBytes_split (w : Word) :
    wordOfBytes (w.extractLsb' 8 8) (w.extractLsb' 0 8) = w := by
  apply BitVec.eq_of_toNat_eq
  have := w.isLt
  rw [wordOfBytes_toNat]
  simp only [BitVec.extractLsb'_toNat, Nat.shiftRight_eq_div_pow]
  omega

end Sys2Proof
end

