-- ==== Sys2Proof/Laws/State.lean ====
section
/-! SUPPORT. One lemma per field per update, true by rfl: no later proof unfolds a record update. -/

namespace Sys2Proof.Machine

variable (s : State)

/-! ## setI -/

@[simp] theorem State.setI_v (a : Word) : (s.setI a).v = s.v := rfl
@[simp] theorem State.setI_i (a : Word) : (s.setI a).i = a := rfl
@[simp] theorem State.setI_pc (a : Word) : (s.setI a).pc = s.pc := rfl
@[simp] theorem State.setI_sp (a : Word) : (s.setI a).sp = s.sp := rfl
@[simp] theorem State.setI_stk (a : Word) : (s.setI a).stk = s.stk := rfl
@[simp] theorem State.setI_dt (a : Word) : (s.setI a).dt = s.dt := rfl
@[simp] theorem State.setI_st (a : Word) : (s.setI a).st = s.st := rfl
@[simp] theorem State.setI_mem (a : Word) : (s.setI a).mem = s.mem := rfl
@[simp] theorem State.setI_fb (a : Word) : (s.setI a).fb = s.fb := rfl
@[simp] theorem State.setI_key (a : Word) : (s.setI a).key = s.key := rfl
@[simp] theorem State.setI_mode (a : Word) : (s.setI a).mode = s.mode := rfl
@[simp] theorem State.setI_waitx (a : Word) : (s.setI a).waitx = s.waitx := rfl
@[simp] theorem State.setI_fcause (a : Word) : (s.setI a).fcause = s.fcause := rfl
@[simp] theorem State.setI_finfo (a : Word) : (s.setI a).finfo = s.finfo := rfl
@[simp] theorem State.setI_draws (a : Word) : (s.setI a).draws = s.draws := rfl
@[simp] theorem State.setI_stage (a : Word) : (s.setI a).stage = s.stage := rfl
@[simp] theorem State.setI_sched (a : Word) : (s.setI a).sched = s.sched := rfl
@[simp] theorem State.setI_getV (a : Word) (r : Reg) : (s.setI a).getV r = s.getV r := rfl
@[simp] theorem State.setI_readByte (a : Word) (p : Nat) : (s.setI a).readByte p = s.readByte p := rfl
@[simp] theorem State.setI_readWord (a : Word) (p : Nat) : (s.setI a).readWord p = s.readWord p := rfl

/-! ## setPc -/

@[simp] theorem State.setPc_v (a : Word) : (s.setPc a).v = s.v := rfl
@[simp] theorem State.setPc_i (a : Word) : (s.setPc a).i = s.i := rfl
@[simp] theorem State.setPc_pc (a : Word) : (s.setPc a).pc = a := rfl
@[simp] theorem State.setPc_sp (a : Word) : (s.setPc a).sp = s.sp := rfl
@[simp] theorem State.setPc_stk (a : Word) : (s.setPc a).stk = s.stk := rfl
@[simp] theorem State.setPc_dt (a : Word) : (s.setPc a).dt = s.dt := rfl
@[simp] theorem State.setPc_st (a : Word) : (s.setPc a).st = s.st := rfl
@[simp] theorem State.setPc_mem (a : Word) : (s.setPc a).mem = s.mem := rfl
@[simp] theorem State.setPc_fb (a : Word) : (s.setPc a).fb = s.fb := rfl
@[simp] theorem State.setPc_key (a : Word) : (s.setPc a).key = s.key := rfl
@[simp] theorem State.setPc_mode (a : Word) : (s.setPc a).mode = s.mode := rfl
@[simp] theorem State.setPc_waitx (a : Word) : (s.setPc a).waitx = s.waitx := rfl
@[simp] theorem State.setPc_fcause (a : Word) : (s.setPc a).fcause = s.fcause := rfl
@[simp] theorem State.setPc_finfo (a : Word) : (s.setPc a).finfo = s.finfo := rfl
@[simp] theorem State.setPc_draws (a : Word) : (s.setPc a).draws = s.draws := rfl
@[simp] theorem State.setPc_stage (a : Word) : (s.setPc a).stage = s.stage := rfl
@[simp] theorem State.setPc_sched (a : Word) : (s.setPc a).sched = s.sched := rfl
@[simp] theorem State.setPc_getV (a : Word) (r : Reg) : (s.setPc a).getV r = s.getV r := rfl
@[simp] theorem State.setPc_readByte (a : Word) (p : Nat) : (s.setPc a).readByte p = s.readByte p := rfl
@[simp] theorem State.setPc_readWord (a : Word) (p : Nat) : (s.setPc a).readWord p = s.readWord p := rfl

/-! ## setSp -/

@[simp] theorem State.setSp_v (a : Byte) : (s.setSp a).v = s.v := rfl
@[simp] theorem State.setSp_i (a : Byte) : (s.setSp a).i = s.i := rfl
@[simp] theorem State.setSp_pc (a : Byte) : (s.setSp a).pc = s.pc := rfl
@[simp] theorem State.setSp_sp (a : Byte) : (s.setSp a).sp = a := rfl
@[simp] theorem State.setSp_stk (a : Byte) : (s.setSp a).stk = s.stk := rfl
@[simp] theorem State.setSp_dt (a : Byte) : (s.setSp a).dt = s.dt := rfl
@[simp] theorem State.setSp_st (a : Byte) : (s.setSp a).st = s.st := rfl
@[simp] theorem State.setSp_mem (a : Byte) : (s.setSp a).mem = s.mem := rfl
@[simp] theorem State.setSp_fb (a : Byte) : (s.setSp a).fb = s.fb := rfl
@[simp] theorem State.setSp_key (a : Byte) : (s.setSp a).key = s.key := rfl
@[simp] theorem State.setSp_mode (a : Byte) : (s.setSp a).mode = s.mode := rfl
@[simp] theorem State.setSp_waitx (a : Byte) : (s.setSp a).waitx = s.waitx := rfl
@[simp] theorem State.setSp_fcause (a : Byte) : (s.setSp a).fcause = s.fcause := rfl
@[simp] theorem State.setSp_finfo (a : Byte) : (s.setSp a).finfo = s.finfo := rfl
@[simp] theorem State.setSp_draws (a : Byte) : (s.setSp a).draws = s.draws := rfl
@[simp] theorem State.setSp_stage (a : Byte) : (s.setSp a).stage = s.stage := rfl
@[simp] theorem State.setSp_sched (a : Byte) : (s.setSp a).sched = s.sched := rfl
@[simp] theorem State.setSp_getV (a : Byte) (r : Reg) : (s.setSp a).getV r = s.getV r := rfl
@[simp] theorem State.setSp_readByte (a : Byte) (p : Nat) : (s.setSp a).readByte p = s.readByte p := rfl
@[simp] theorem State.setSp_readWord (a : Byte) (p : Nat) : (s.setSp a).readWord p = s.readWord p := rfl

/-! ## setStk -/

@[simp] theorem State.setStk_v (a : Vector Word 16) : (s.setStk a).v = s.v := rfl
@[simp] theorem State.setStk_i (a : Vector Word 16) : (s.setStk a).i = s.i := rfl
@[simp] theorem State.setStk_pc (a : Vector Word 16) : (s.setStk a).pc = s.pc := rfl
@[simp] theorem State.setStk_sp (a : Vector Word 16) : (s.setStk a).sp = s.sp := rfl
@[simp] theorem State.setStk_stk (a : Vector Word 16) : (s.setStk a).stk = a := rfl
@[simp] theorem State.setStk_dt (a : Vector Word 16) : (s.setStk a).dt = s.dt := rfl
@[simp] theorem State.setStk_st (a : Vector Word 16) : (s.setStk a).st = s.st := rfl
@[simp] theorem State.setStk_mem (a : Vector Word 16) : (s.setStk a).mem = s.mem := rfl
@[simp] theorem State.setStk_fb (a : Vector Word 16) : (s.setStk a).fb = s.fb := rfl
@[simp] theorem State.setStk_key (a : Vector Word 16) : (s.setStk a).key = s.key := rfl
@[simp] theorem State.setStk_mode (a : Vector Word 16) : (s.setStk a).mode = s.mode := rfl
@[simp] theorem State.setStk_waitx (a : Vector Word 16) : (s.setStk a).waitx = s.waitx := rfl
@[simp] theorem State.setStk_fcause (a : Vector Word 16) : (s.setStk a).fcause = s.fcause := rfl
@[simp] theorem State.setStk_finfo (a : Vector Word 16) : (s.setStk a).finfo = s.finfo := rfl
@[simp] theorem State.setStk_draws (a : Vector Word 16) : (s.setStk a).draws = s.draws := rfl
@[simp] theorem State.setStk_stage (a : Vector Word 16) : (s.setStk a).stage = s.stage := rfl
@[simp] theorem State.setStk_sched (a : Vector Word 16) : (s.setStk a).sched = s.sched := rfl
@[simp] theorem State.setStk_getV (a : Vector Word 16) (r : Reg) : (s.setStk a).getV r = s.getV r := rfl
@[simp] theorem State.setStk_readByte (a : Vector Word 16) (p : Nat) : (s.setStk a).readByte p = s.readByte p := rfl
@[simp] theorem State.setStk_readWord (a : Vector Word 16) (p : Nat) : (s.setStk a).readWord p = s.readWord p := rfl

/-! ## setDt -/

@[simp] theorem State.setDt_v (a : Byte) : (s.setDt a).v = s.v := rfl
@[simp] theorem State.setDt_i (a : Byte) : (s.setDt a).i = s.i := rfl
@[simp] theorem State.setDt_pc (a : Byte) : (s.setDt a).pc = s.pc := rfl
@[simp] theorem State.setDt_sp (a : Byte) : (s.setDt a).sp = s.sp := rfl
@[simp] theorem State.setDt_stk (a : Byte) : (s.setDt a).stk = s.stk := rfl
@[simp] theorem State.setDt_dt (a : Byte) : (s.setDt a).dt = a := rfl
@[simp] theorem State.setDt_st (a : Byte) : (s.setDt a).st = s.st := rfl
@[simp] theorem State.setDt_mem (a : Byte) : (s.setDt a).mem = s.mem := rfl
@[simp] theorem State.setDt_fb (a : Byte) : (s.setDt a).fb = s.fb := rfl
@[simp] theorem State.setDt_key (a : Byte) : (s.setDt a).key = s.key := rfl
@[simp] theorem State.setDt_mode (a : Byte) : (s.setDt a).mode = s.mode := rfl
@[simp] theorem State.setDt_waitx (a : Byte) : (s.setDt a).waitx = s.waitx := rfl
@[simp] theorem State.setDt_fcause (a : Byte) : (s.setDt a).fcause = s.fcause := rfl
@[simp] theorem State.setDt_finfo (a : Byte) : (s.setDt a).finfo = s.finfo := rfl
@[simp] theorem State.setDt_draws (a : Byte) : (s.setDt a).draws = s.draws := rfl
@[simp] theorem State.setDt_stage (a : Byte) : (s.setDt a).stage = s.stage := rfl
@[simp] theorem State.setDt_sched (a : Byte) : (s.setDt a).sched = s.sched := rfl
@[simp] theorem State.setDt_getV (a : Byte) (r : Reg) : (s.setDt a).getV r = s.getV r := rfl
@[simp] theorem State.setDt_readByte (a : Byte) (p : Nat) : (s.setDt a).readByte p = s.readByte p := rfl
@[simp] theorem State.setDt_readWord (a : Byte) (p : Nat) : (s.setDt a).readWord p = s.readWord p := rfl

/-! ## setSt -/

@[simp] theorem State.setSt_v (a : Byte) : (s.setSt a).v = s.v := rfl
@[simp] theorem State.setSt_i (a : Byte) : (s.setSt a).i = s.i := rfl
@[simp] theorem State.setSt_pc (a : Byte) : (s.setSt a).pc = s.pc := rfl
@[simp] theorem State.setSt_sp (a : Byte) : (s.setSt a).sp = s.sp := rfl
@[simp] theorem State.setSt_stk (a : Byte) : (s.setSt a).stk = s.stk := rfl
@[simp] theorem State.setSt_dt (a : Byte) : (s.setSt a).dt = s.dt := rfl
@[simp] theorem State.setSt_st (a : Byte) : (s.setSt a).st = a := rfl
@[simp] theorem State.setSt_mem (a : Byte) : (s.setSt a).mem = s.mem := rfl
@[simp] theorem State.setSt_fb (a : Byte) : (s.setSt a).fb = s.fb := rfl
@[simp] theorem State.setSt_key (a : Byte) : (s.setSt a).key = s.key := rfl
@[simp] theorem State.setSt_mode (a : Byte) : (s.setSt a).mode = s.mode := rfl
@[simp] theorem State.setSt_waitx (a : Byte) : (s.setSt a).waitx = s.waitx := rfl
@[simp] theorem State.setSt_fcause (a : Byte) : (s.setSt a).fcause = s.fcause := rfl
@[simp] theorem State.setSt_finfo (a : Byte) : (s.setSt a).finfo = s.finfo := rfl
@[simp] theorem State.setSt_draws (a : Byte) : (s.setSt a).draws = s.draws := rfl
@[simp] theorem State.setSt_stage (a : Byte) : (s.setSt a).stage = s.stage := rfl
@[simp] theorem State.setSt_sched (a : Byte) : (s.setSt a).sched = s.sched := rfl
@[simp] theorem State.setSt_getV (a : Byte) (r : Reg) : (s.setSt a).getV r = s.getV r := rfl
@[simp] theorem State.setSt_readByte (a : Byte) (p : Nat) : (s.setSt a).readByte p = s.readByte p := rfl
@[simp] theorem State.setSt_readWord (a : Byte) (p : Nat) : (s.setSt a).readWord p = s.readWord p := rfl

/-! ## setMem -/

@[simp] theorem State.setMem_v (a : Memory) : (s.setMem a).v = s.v := rfl
@[simp] theorem State.setMem_i (a : Memory) : (s.setMem a).i = s.i := rfl
@[simp] theorem State.setMem_pc (a : Memory) : (s.setMem a).pc = s.pc := rfl
@[simp] theorem State.setMem_sp (a : Memory) : (s.setMem a).sp = s.sp := rfl
@[simp] theorem State.setMem_stk (a : Memory) : (s.setMem a).stk = s.stk := rfl
@[simp] theorem State.setMem_dt (a : Memory) : (s.setMem a).dt = s.dt := rfl
@[simp] theorem State.setMem_st (a : Memory) : (s.setMem a).st = s.st := rfl
@[simp] theorem State.setMem_mem (a : Memory) : (s.setMem a).mem = a := rfl
@[simp] theorem State.setMem_fb (a : Memory) : (s.setMem a).fb = s.fb := rfl
@[simp] theorem State.setMem_key (a : Memory) : (s.setMem a).key = s.key := rfl
@[simp] theorem State.setMem_mode (a : Memory) : (s.setMem a).mode = s.mode := rfl
@[simp] theorem State.setMem_waitx (a : Memory) : (s.setMem a).waitx = s.waitx := rfl
@[simp] theorem State.setMem_fcause (a : Memory) : (s.setMem a).fcause = s.fcause := rfl
@[simp] theorem State.setMem_finfo (a : Memory) : (s.setMem a).finfo = s.finfo := rfl
@[simp] theorem State.setMem_draws (a : Memory) : (s.setMem a).draws = s.draws := rfl
@[simp] theorem State.setMem_stage (a : Memory) : (s.setMem a).stage = s.stage := rfl
@[simp] theorem State.setMem_sched (a : Memory) : (s.setMem a).sched = s.sched := rfl
@[simp] theorem State.setMem_getV (a : Memory) (r : Reg) : (s.setMem a).getV r = s.getV r := rfl

/-! ## setFb -/

@[simp] theorem State.setFb_v (a : Framebuffer) : (s.setFb a).v = s.v := rfl
@[simp] theorem State.setFb_i (a : Framebuffer) : (s.setFb a).i = s.i := rfl
@[simp] theorem State.setFb_pc (a : Framebuffer) : (s.setFb a).pc = s.pc := rfl
@[simp] theorem State.setFb_sp (a : Framebuffer) : (s.setFb a).sp = s.sp := rfl
@[simp] theorem State.setFb_stk (a : Framebuffer) : (s.setFb a).stk = s.stk := rfl
@[simp] theorem State.setFb_dt (a : Framebuffer) : (s.setFb a).dt = s.dt := rfl
@[simp] theorem State.setFb_st (a : Framebuffer) : (s.setFb a).st = s.st := rfl
@[simp] theorem State.setFb_mem (a : Framebuffer) : (s.setFb a).mem = s.mem := rfl
@[simp] theorem State.setFb_fb (a : Framebuffer) : (s.setFb a).fb = a := rfl
@[simp] theorem State.setFb_key (a : Framebuffer) : (s.setFb a).key = s.key := rfl
@[simp] theorem State.setFb_mode (a : Framebuffer) : (s.setFb a).mode = s.mode := rfl
@[simp] theorem State.setFb_waitx (a : Framebuffer) : (s.setFb a).waitx = s.waitx := rfl
@[simp] theorem State.setFb_fcause (a : Framebuffer) : (s.setFb a).fcause = s.fcause := rfl
@[simp] theorem State.setFb_finfo (a : Framebuffer) : (s.setFb a).finfo = s.finfo := rfl
@[simp] theorem State.setFb_draws (a : Framebuffer) : (s.setFb a).draws = s.draws := rfl
@[simp] theorem State.setFb_stage (a : Framebuffer) : (s.setFb a).stage = s.stage := rfl
@[simp] theorem State.setFb_sched (a : Framebuffer) : (s.setFb a).sched = s.sched := rfl
@[simp] theorem State.setFb_getV (a : Framebuffer) (r : Reg) : (s.setFb a).getV r = s.getV r := rfl
@[simp] theorem State.setFb_readByte (a : Framebuffer) (p : Nat) : (s.setFb a).readByte p = s.readByte p := rfl
@[simp] theorem State.setFb_readWord (a : Framebuffer) (p : Nat) : (s.setFb a).readWord p = s.readWord p := rfl

/-! ## setKeys -/

@[simp] theorem State.setKeys_v (a : Vector Bool 16) : (s.setKeys a).v = s.v := rfl
@[simp] theorem State.setKeys_i (a : Vector Bool 16) : (s.setKeys a).i = s.i := rfl
@[simp] theorem State.setKeys_pc (a : Vector Bool 16) : (s.setKeys a).pc = s.pc := rfl
@[simp] theorem State.setKeys_sp (a : Vector Bool 16) : (s.setKeys a).sp = s.sp := rfl
@[simp] theorem State.setKeys_stk (a : Vector Bool 16) : (s.setKeys a).stk = s.stk := rfl
@[simp] theorem State.setKeys_dt (a : Vector Bool 16) : (s.setKeys a).dt = s.dt := rfl
@[simp] theorem State.setKeys_st (a : Vector Bool 16) : (s.setKeys a).st = s.st := rfl
@[simp] theorem State.setKeys_mem (a : Vector Bool 16) : (s.setKeys a).mem = s.mem := rfl
@[simp] theorem State.setKeys_fb (a : Vector Bool 16) : (s.setKeys a).fb = s.fb := rfl
@[simp] theorem State.setKeys_key (a : Vector Bool 16) : (s.setKeys a).key = a := rfl
@[simp] theorem State.setKeys_mode (a : Vector Bool 16) : (s.setKeys a).mode = s.mode := rfl
@[simp] theorem State.setKeys_waitx (a : Vector Bool 16) : (s.setKeys a).waitx = s.waitx := rfl
@[simp] theorem State.setKeys_fcause (a : Vector Bool 16) : (s.setKeys a).fcause = s.fcause := rfl
@[simp] theorem State.setKeys_finfo (a : Vector Bool 16) : (s.setKeys a).finfo = s.finfo := rfl
@[simp] theorem State.setKeys_draws (a : Vector Bool 16) : (s.setKeys a).draws = s.draws := rfl
@[simp] theorem State.setKeys_stage (a : Vector Bool 16) : (s.setKeys a).stage = s.stage := rfl
@[simp] theorem State.setKeys_sched (a : Vector Bool 16) : (s.setKeys a).sched = s.sched := rfl
@[simp] theorem State.setKeys_getV (a : Vector Bool 16) (r : Reg) : (s.setKeys a).getV r = s.getV r := rfl
@[simp] theorem State.setKeys_readByte (a : Vector Bool 16) (p : Nat) : (s.setKeys a).readByte p = s.readByte p := rfl
@[simp] theorem State.setKeys_readWord (a : Vector Bool 16) (p : Nat) : (s.setKeys a).readWord p = s.readWord p := rfl

/-! ## setMode -/

@[simp] theorem State.setMode_v (a : Mode) : (s.setMode a).v = s.v := rfl
@[simp] theorem State.setMode_i (a : Mode) : (s.setMode a).i = s.i := rfl
@[simp] theorem State.setMode_pc (a : Mode) : (s.setMode a).pc = s.pc := rfl
@[simp] theorem State.setMode_sp (a : Mode) : (s.setMode a).sp = s.sp := rfl
@[simp] theorem State.setMode_stk (a : Mode) : (s.setMode a).stk = s.stk := rfl
@[simp] theorem State.setMode_dt (a : Mode) : (s.setMode a).dt = s.dt := rfl
@[simp] theorem State.setMode_st (a : Mode) : (s.setMode a).st = s.st := rfl
@[simp] theorem State.setMode_mem (a : Mode) : (s.setMode a).mem = s.mem := rfl
@[simp] theorem State.setMode_fb (a : Mode) : (s.setMode a).fb = s.fb := rfl
@[simp] theorem State.setMode_key (a : Mode) : (s.setMode a).key = s.key := rfl
@[simp] theorem State.setMode_mode (a : Mode) : (s.setMode a).mode = a := rfl
@[simp] theorem State.setMode_waitx (a : Mode) : (s.setMode a).waitx = s.waitx := rfl
@[simp] theorem State.setMode_fcause (a : Mode) : (s.setMode a).fcause = s.fcause := rfl
@[simp] theorem State.setMode_finfo (a : Mode) : (s.setMode a).finfo = s.finfo := rfl
@[simp] theorem State.setMode_draws (a : Mode) : (s.setMode a).draws = s.draws := rfl
@[simp] theorem State.setMode_stage (a : Mode) : (s.setMode a).stage = s.stage := rfl
@[simp] theorem State.setMode_sched (a : Mode) : (s.setMode a).sched = s.sched := rfl
@[simp] theorem State.setMode_getV (a : Mode) (r : Reg) : (s.setMode a).getV r = s.getV r := rfl
@[simp] theorem State.setMode_readByte (a : Mode) (p : Nat) : (s.setMode a).readByte p = s.readByte p := rfl
@[simp] theorem State.setMode_readWord (a : Mode) (p : Nat) : (s.setMode a).readWord p = s.readWord p := rfl

/-! ## setWaitx -/

@[simp] theorem State.setWaitx_v (a : Reg) : (s.setWaitx a).v = s.v := rfl
@[simp] theorem State.setWaitx_i (a : Reg) : (s.setWaitx a).i = s.i := rfl
@[simp] theorem State.setWaitx_pc (a : Reg) : (s.setWaitx a).pc = s.pc := rfl
@[simp] theorem State.setWaitx_sp (a : Reg) : (s.setWaitx a).sp = s.sp := rfl
@[simp] theorem State.setWaitx_stk (a : Reg) : (s.setWaitx a).stk = s.stk := rfl
@[simp] theorem State.setWaitx_dt (a : Reg) : (s.setWaitx a).dt = s.dt := rfl
@[simp] theorem State.setWaitx_st (a : Reg) : (s.setWaitx a).st = s.st := rfl
@[simp] theorem State.setWaitx_mem (a : Reg) : (s.setWaitx a).mem = s.mem := rfl
@[simp] theorem State.setWaitx_fb (a : Reg) : (s.setWaitx a).fb = s.fb := rfl
@[simp] theorem State.setWaitx_key (a : Reg) : (s.setWaitx a).key = s.key := rfl
@[simp] theorem State.setWaitx_mode (a : Reg) : (s.setWaitx a).mode = s.mode := rfl
@[simp] theorem State.setWaitx_waitx (a : Reg) : (s.setWaitx a).waitx = a := rfl
@[simp] theorem State.setWaitx_fcause (a : Reg) : (s.setWaitx a).fcause = s.fcause := rfl
@[simp] theorem State.setWaitx_finfo (a : Reg) : (s.setWaitx a).finfo = s.finfo := rfl
@[simp] theorem State.setWaitx_draws (a : Reg) : (s.setWaitx a).draws = s.draws := rfl
@[simp] theorem State.setWaitx_stage (a : Reg) : (s.setWaitx a).stage = s.stage := rfl
@[simp] theorem State.setWaitx_sched (a : Reg) : (s.setWaitx a).sched = s.sched := rfl
@[simp] theorem State.setWaitx_getV (a : Reg) (r : Reg) : (s.setWaitx a).getV r = s.getV r := rfl
@[simp] theorem State.setWaitx_readByte (a : Reg) (p : Nat) : (s.setWaitx a).readByte p = s.readByte p := rfl
@[simp] theorem State.setWaitx_readWord (a : Reg) (p : Nat) : (s.setWaitx a).readWord p = s.readWord p := rfl

/-! ## setLatch -/

@[simp] theorem State.setLatch_v (a : FaultCause) (b : Word) : (s.setLatch a b).v = s.v := rfl
@[simp] theorem State.setLatch_i (a : FaultCause) (b : Word) : (s.setLatch a b).i = s.i := rfl
@[simp] theorem State.setLatch_pc (a : FaultCause) (b : Word) : (s.setLatch a b).pc = s.pc := rfl
@[simp] theorem State.setLatch_sp (a : FaultCause) (b : Word) : (s.setLatch a b).sp = s.sp := rfl
@[simp] theorem State.setLatch_stk (a : FaultCause) (b : Word) : (s.setLatch a b).stk = s.stk := rfl
@[simp] theorem State.setLatch_dt (a : FaultCause) (b : Word) : (s.setLatch a b).dt = s.dt := rfl
@[simp] theorem State.setLatch_st (a : FaultCause) (b : Word) : (s.setLatch a b).st = s.st := rfl
@[simp] theorem State.setLatch_mem (a : FaultCause) (b : Word) : (s.setLatch a b).mem = s.mem := rfl
@[simp] theorem State.setLatch_fb (a : FaultCause) (b : Word) : (s.setLatch a b).fb = s.fb := rfl
@[simp] theorem State.setLatch_key (a : FaultCause) (b : Word) : (s.setLatch a b).key = s.key := rfl
@[simp] theorem State.setLatch_mode (a : FaultCause) (b : Word) : (s.setLatch a b).mode = s.mode := rfl
@[simp] theorem State.setLatch_waitx (a : FaultCause) (b : Word) : (s.setLatch a b).waitx = s.waitx := rfl
@[simp] theorem State.setLatch_fcause (a : FaultCause) (b : Word) : (s.setLatch a b).fcause = a := rfl
@[simp] theorem State.setLatch_finfo (a : FaultCause) (b : Word) : (s.setLatch a b).finfo = b := rfl
@[simp] theorem State.setLatch_draws (a : FaultCause) (b : Word) : (s.setLatch a b).draws = s.draws := rfl
@[simp] theorem State.setLatch_stage (a : FaultCause) (b : Word) : (s.setLatch a b).stage = s.stage := rfl
@[simp] theorem State.setLatch_sched (a : FaultCause) (b : Word) : (s.setLatch a b).sched = s.sched := rfl
@[simp] theorem State.setLatch_getV (a : FaultCause) (b : Word) (r : Reg) : (s.setLatch a b).getV r = s.getV r := rfl
@[simp] theorem State.setLatch_readByte (a : FaultCause) (b : Word) (p : Nat) : (s.setLatch a b).readByte p = s.readByte p := rfl
@[simp] theorem State.setLatch_readWord (a : FaultCause) (b : Word) (p : Nat) : (s.setLatch a b).readWord p = s.readWord p := rfl

/-! ## countDraw -/

@[simp] theorem State.countDraw_v : (s.countDraw).v = s.v := rfl
@[simp] theorem State.countDraw_i : (s.countDraw).i = s.i := rfl
@[simp] theorem State.countDraw_pc : (s.countDraw).pc = s.pc := rfl
@[simp] theorem State.countDraw_sp : (s.countDraw).sp = s.sp := rfl
@[simp] theorem State.countDraw_stk : (s.countDraw).stk = s.stk := rfl
@[simp] theorem State.countDraw_dt : (s.countDraw).dt = s.dt := rfl
@[simp] theorem State.countDraw_st : (s.countDraw).st = s.st := rfl
@[simp] theorem State.countDraw_mem : (s.countDraw).mem = s.mem := rfl
@[simp] theorem State.countDraw_fb : (s.countDraw).fb = s.fb := rfl
@[simp] theorem State.countDraw_key : (s.countDraw).key = s.key := rfl
@[simp] theorem State.countDraw_mode : (s.countDraw).mode = s.mode := rfl
@[simp] theorem State.countDraw_waitx : (s.countDraw).waitx = s.waitx := rfl
@[simp] theorem State.countDraw_fcause : (s.countDraw).fcause = s.fcause := rfl
@[simp] theorem State.countDraw_finfo : (s.countDraw).finfo = s.finfo := rfl
@[simp] theorem State.countDraw_draws : (s.countDraw).draws = s.draws + 1 := rfl
@[simp] theorem State.countDraw_stage : (s.countDraw).stage = s.stage := rfl
@[simp] theorem State.countDraw_sched : (s.countDraw).sched = s.sched := rfl
@[simp] theorem State.countDraw_getV (r : Reg) : (s.countDraw).getV r = s.getV r := rfl
@[simp] theorem State.countDraw_readByte (p : Nat) : (s.countDraw).readByte p = s.readByte p := rfl
@[simp] theorem State.countDraw_readWord (p : Nat) : (s.countDraw).readWord p = s.readWord p := rfl

/-! ## setStage -/

@[simp] theorem State.setStage_v (a : BootStage) : (s.setStage a).v = s.v := rfl
@[simp] theorem State.setStage_i (a : BootStage) : (s.setStage a).i = s.i := rfl
@[simp] theorem State.setStage_pc (a : BootStage) : (s.setStage a).pc = s.pc := rfl
@[simp] theorem State.setStage_sp (a : BootStage) : (s.setStage a).sp = s.sp := rfl
@[simp] theorem State.setStage_stk (a : BootStage) : (s.setStage a).stk = s.stk := rfl
@[simp] theorem State.setStage_dt (a : BootStage) : (s.setStage a).dt = s.dt := rfl
@[simp] theorem State.setStage_st (a : BootStage) : (s.setStage a).st = s.st := rfl
@[simp] theorem State.setStage_mem (a : BootStage) : (s.setStage a).mem = s.mem := rfl
@[simp] theorem State.setStage_fb (a : BootStage) : (s.setStage a).fb = s.fb := rfl
@[simp] theorem State.setStage_key (a : BootStage) : (s.setStage a).key = s.key := rfl
@[simp] theorem State.setStage_mode (a : BootStage) : (s.setStage a).mode = s.mode := rfl
@[simp] theorem State.setStage_waitx (a : BootStage) : (s.setStage a).waitx = s.waitx := rfl
@[simp] theorem State.setStage_fcause (a : BootStage) : (s.setStage a).fcause = s.fcause := rfl
@[simp] theorem State.setStage_finfo (a : BootStage) : (s.setStage a).finfo = s.finfo := rfl
@[simp] theorem State.setStage_draws (a : BootStage) : (s.setStage a).draws = s.draws := rfl
@[simp] theorem State.setStage_stage (a : BootStage) : (s.setStage a).stage = a := rfl
@[simp] theorem State.setStage_sched (a : BootStage) : (s.setStage a).sched = s.sched := rfl
@[simp] theorem State.setStage_getV (a : BootStage) (r : Reg) : (s.setStage a).getV r = s.getV r := rfl
@[simp] theorem State.setStage_readByte (a : BootStage) (p : Nat) : (s.setStage a).readByte p = s.readByte p := rfl
@[simp] theorem State.setStage_readWord (a : BootStage) (p : Nat) : (s.setStage a).readWord p = s.readWord p := rfl

/-! ## setSched -/

@[simp] theorem State.setSched_v (a : List Event) : (s.setSched a).v = s.v := rfl
@[simp] theorem State.setSched_i (a : List Event) : (s.setSched a).i = s.i := rfl
@[simp] theorem State.setSched_pc (a : List Event) : (s.setSched a).pc = s.pc := rfl
@[simp] theorem State.setSched_sp (a : List Event) : (s.setSched a).sp = s.sp := rfl
@[simp] theorem State.setSched_stk (a : List Event) : (s.setSched a).stk = s.stk := rfl
@[simp] theorem State.setSched_dt (a : List Event) : (s.setSched a).dt = s.dt := rfl
@[simp] theorem State.setSched_st (a : List Event) : (s.setSched a).st = s.st := rfl
@[simp] theorem State.setSched_mem (a : List Event) : (s.setSched a).mem = s.mem := rfl
@[simp] theorem State.setSched_fb (a : List Event) : (s.setSched a).fb = s.fb := rfl
@[simp] theorem State.setSched_key (a : List Event) : (s.setSched a).key = s.key := rfl
@[simp] theorem State.setSched_mode (a : List Event) : (s.setSched a).mode = s.mode := rfl
@[simp] theorem State.setSched_waitx (a : List Event) : (s.setSched a).waitx = s.waitx := rfl
@[simp] theorem State.setSched_fcause (a : List Event) : (s.setSched a).fcause = s.fcause := rfl
@[simp] theorem State.setSched_finfo (a : List Event) : (s.setSched a).finfo = s.finfo := rfl
@[simp] theorem State.setSched_draws (a : List Event) : (s.setSched a).draws = s.draws := rfl
@[simp] theorem State.setSched_stage (a : List Event) : (s.setSched a).stage = s.stage := rfl
@[simp] theorem State.setSched_sched (a : List Event) : (s.setSched a).sched = a := rfl
@[simp] theorem State.setSched_getV (a : List Event) (r : Reg) : (s.setSched a).getV r = s.getV r := rfl
@[simp] theorem State.setSched_readByte (a : List Event) (p : Nat) : (s.setSched a).readByte p = s.readByte p := rfl
@[simp] theorem State.setSched_readWord (a : List Event) (p : Nat) : (s.setSched a).readWord p = s.readWord p := rfl

/-! ## setV -/

@[simp] theorem State.setV_v (x : Reg) (b : Byte) : (s.setV x b).v = s.v.set x b := rfl
@[simp] theorem State.setV_i (x : Reg) (b : Byte) : (s.setV x b).i = s.i := rfl
@[simp] theorem State.setV_pc (x : Reg) (b : Byte) : (s.setV x b).pc = s.pc := rfl
@[simp] theorem State.setV_sp (x : Reg) (b : Byte) : (s.setV x b).sp = s.sp := rfl
@[simp] theorem State.setV_stk (x : Reg) (b : Byte) : (s.setV x b).stk = s.stk := rfl
@[simp] theorem State.setV_dt (x : Reg) (b : Byte) : (s.setV x b).dt = s.dt := rfl
@[simp] theorem State.setV_st (x : Reg) (b : Byte) : (s.setV x b).st = s.st := rfl
@[simp] theorem State.setV_mem (x : Reg) (b : Byte) : (s.setV x b).mem = s.mem := rfl
@[simp] theorem State.setV_fb (x : Reg) (b : Byte) : (s.setV x b).fb = s.fb := rfl
@[simp] theorem State.setV_key (x : Reg) (b : Byte) : (s.setV x b).key = s.key := rfl
@[simp] theorem State.setV_mode (x : Reg) (b : Byte) : (s.setV x b).mode = s.mode := rfl
@[simp] theorem State.setV_waitx (x : Reg) (b : Byte) : (s.setV x b).waitx = s.waitx := rfl
@[simp] theorem State.setV_fcause (x : Reg) (b : Byte) : (s.setV x b).fcause = s.fcause := rfl
@[simp] theorem State.setV_finfo (x : Reg) (b : Byte) : (s.setV x b).finfo = s.finfo := rfl
@[simp] theorem State.setV_draws (x : Reg) (b : Byte) : (s.setV x b).draws = s.draws := rfl
@[simp] theorem State.setV_stage (x : Reg) (b : Byte) : (s.setV x b).stage = s.stage := rfl
@[simp] theorem State.setV_sched (x : Reg) (b : Byte) : (s.setV x b).sched = s.sched := rfl
@[simp] theorem State.setV_readByte (x : Reg) (b : Byte) (p : Nat) : (s.setV x b).readByte p = s.readByte p := rfl
@[simp] theorem State.setV_readWord (x : Reg) (b : Byte) (p : Nat) : (s.setV x b).readWord p = s.readWord p := rfl

/-! ## raiseFault -/

@[simp] theorem State.raiseFault_v (a : FaultCause) (b : Word) : (s.raiseFault a b).v = s.v := rfl
@[simp] theorem State.raiseFault_i (a : FaultCause) (b : Word) : (s.raiseFault a b).i = s.i := rfl
@[simp] theorem State.raiseFault_pc (a : FaultCause) (b : Word) : (s.raiseFault a b).pc = s.pc := rfl
@[simp] theorem State.raiseFault_sp (a : FaultCause) (b : Word) : (s.raiseFault a b).sp = s.sp := rfl
@[simp] theorem State.raiseFault_stk (a : FaultCause) (b : Word) : (s.raiseFault a b).stk = s.stk := rfl
@[simp] theorem State.raiseFault_dt (a : FaultCause) (b : Word) : (s.raiseFault a b).dt = s.dt := rfl
@[simp] theorem State.raiseFault_st (a : FaultCause) (b : Word) : (s.raiseFault a b).st = s.st := rfl
@[simp] theorem State.raiseFault_mem (a : FaultCause) (b : Word) : (s.raiseFault a b).mem = s.mem := rfl
@[simp] theorem State.raiseFault_fb (a : FaultCause) (b : Word) : (s.raiseFault a b).fb = s.fb := rfl
@[simp] theorem State.raiseFault_key (a : FaultCause) (b : Word) : (s.raiseFault a b).key = s.key := rfl
@[simp] theorem State.raiseFault_mode (a : FaultCause) (b : Word) : (s.raiseFault a b).mode = .fault := rfl
@[simp] theorem State.raiseFault_waitx (a : FaultCause) (b : Word) : (s.raiseFault a b).waitx = s.waitx := rfl
@[simp] theorem State.raiseFault_fcause (a : FaultCause) (b : Word) : (s.raiseFault a b).fcause = a := rfl
@[simp] theorem State.raiseFault_finfo (a : FaultCause) (b : Word) : (s.raiseFault a b).finfo = b := rfl
@[simp] theorem State.raiseFault_draws (a : FaultCause) (b : Word) : (s.raiseFault a b).draws = s.draws := rfl
@[simp] theorem State.raiseFault_stage (a : FaultCause) (b : Word) : (s.raiseFault a b).stage = s.stage := rfl
@[simp] theorem State.raiseFault_sched (a : FaultCause) (b : Word) : (s.raiseFault a b).sched = s.sched := rfl
@[simp] theorem State.raiseFault_getV (a : FaultCause) (b : Word) (r : Reg) : (s.raiseFault a b).getV r = s.getV r := rfl
@[simp] theorem State.raiseFault_readByte (a : FaultCause) (b : Word) (p : Nat) : (s.raiseFault a b).readByte p = s.readByte p := rfl
@[simp] theorem State.raiseFault_readWord (a : FaultCause) (b : Word) (p : Nat) : (s.raiseFault a b).readWord p = s.readWord p := rfl

/-! ## advance -/

@[simp] theorem State.advance_v : (s.advance).v = s.v := rfl
@[simp] theorem State.advance_i : (s.advance).i = s.i := rfl
@[simp] theorem State.advance_pc : (s.advance).pc = s.pc + 2 := rfl
@[simp] theorem State.advance_sp : (s.advance).sp = s.sp := rfl
@[simp] theorem State.advance_stk : (s.advance).stk = s.stk := rfl
@[simp] theorem State.advance_dt : (s.advance).dt = s.dt := rfl
@[simp] theorem State.advance_st : (s.advance).st = s.st := rfl
@[simp] theorem State.advance_mem : (s.advance).mem = s.mem := rfl
@[simp] theorem State.advance_fb : (s.advance).fb = s.fb := rfl
@[simp] theorem State.advance_key : (s.advance).key = s.key := rfl
@[simp] theorem State.advance_mode : (s.advance).mode = s.mode := rfl
@[simp] theorem State.advance_waitx : (s.advance).waitx = s.waitx := rfl
@[simp] theorem State.advance_fcause : (s.advance).fcause = s.fcause := rfl
@[simp] theorem State.advance_finfo : (s.advance).finfo = s.finfo := rfl
@[simp] theorem State.advance_draws : (s.advance).draws = s.draws := rfl
@[simp] theorem State.advance_stage : (s.advance).stage = s.stage := rfl
@[simp] theorem State.advance_sched : (s.advance).sched = s.sched := rfl
@[simp] theorem State.advance_getV (r : Reg) : (s.advance).getV r = s.getV r := rfl
@[simp] theorem State.advance_readByte (p : Nat) : (s.advance).readByte p = s.readByte p := rfl
@[simp] theorem State.advance_readWord (p : Nat) : (s.advance).readWord p = s.readWord p := rfl

/-! ## skipIf -/

@[simp] theorem State.skipIf_v (a : Bool) : (s.skipIf a).v = s.v := rfl
@[simp] theorem State.skipIf_i (a : Bool) : (s.skipIf a).i = s.i := rfl
@[simp] theorem State.skipIf_pc (a : Bool) : (s.skipIf a).pc = s.pc + if a then 4 else 2 := rfl
@[simp] theorem State.skipIf_sp (a : Bool) : (s.skipIf a).sp = s.sp := rfl
@[simp] theorem State.skipIf_stk (a : Bool) : (s.skipIf a).stk = s.stk := rfl
@[simp] theorem State.skipIf_dt (a : Bool) : (s.skipIf a).dt = s.dt := rfl
@[simp] theorem State.skipIf_st (a : Bool) : (s.skipIf a).st = s.st := rfl
@[simp] theorem State.skipIf_mem (a : Bool) : (s.skipIf a).mem = s.mem := rfl
@[simp] theorem State.skipIf_fb (a : Bool) : (s.skipIf a).fb = s.fb := rfl
@[simp] theorem State.skipIf_key (a : Bool) : (s.skipIf a).key = s.key := rfl
@[simp] theorem State.skipIf_mode (a : Bool) : (s.skipIf a).mode = s.mode := rfl
@[simp] theorem State.skipIf_waitx (a : Bool) : (s.skipIf a).waitx = s.waitx := rfl
@[simp] theorem State.skipIf_fcause (a : Bool) : (s.skipIf a).fcause = s.fcause := rfl
@[simp] theorem State.skipIf_finfo (a : Bool) : (s.skipIf a).finfo = s.finfo := rfl
@[simp] theorem State.skipIf_draws (a : Bool) : (s.skipIf a).draws = s.draws := rfl
@[simp] theorem State.skipIf_stage (a : Bool) : (s.skipIf a).stage = s.stage := rfl
@[simp] theorem State.skipIf_sched (a : Bool) : (s.skipIf a).sched = s.sched := rfl
@[simp] theorem State.skipIf_getV (a : Bool) (r : Reg) : (s.skipIf a).getV r = s.getV r := rfl
@[simp] theorem State.skipIf_readByte (a : Bool) (p : Nat) : (s.skipIf a).readByte p = s.readByte p := rfl
@[simp] theorem State.skipIf_readWord (a : Bool) (p : Nat) : (s.skipIf a).readWord p = s.readWord p := rfl

/-! ## bumpI -/

@[simp] theorem State.bumpI_v (a : Word) : (s.bumpI a).v = s.v := rfl
@[simp] theorem State.bumpI_i (a : Word) : (s.bumpI a).i = s.i + a := rfl
@[simp] theorem State.bumpI_pc (a : Word) : (s.bumpI a).pc = s.pc := rfl
@[simp] theorem State.bumpI_sp (a : Word) : (s.bumpI a).sp = s.sp := rfl
@[simp] theorem State.bumpI_stk (a : Word) : (s.bumpI a).stk = s.stk := rfl
@[simp] theorem State.bumpI_dt (a : Word) : (s.bumpI a).dt = s.dt := rfl
@[simp] theorem State.bumpI_st (a : Word) : (s.bumpI a).st = s.st := rfl
@[simp] theorem State.bumpI_mem (a : Word) : (s.bumpI a).mem = s.mem := rfl
@[simp] theorem State.bumpI_fb (a : Word) : (s.bumpI a).fb = s.fb := rfl
@[simp] theorem State.bumpI_key (a : Word) : (s.bumpI a).key = s.key := rfl
@[simp] theorem State.bumpI_mode (a : Word) : (s.bumpI a).mode = s.mode := rfl
@[simp] theorem State.bumpI_waitx (a : Word) : (s.bumpI a).waitx = s.waitx := rfl
@[simp] theorem State.bumpI_fcause (a : Word) : (s.bumpI a).fcause = s.fcause := rfl
@[simp] theorem State.bumpI_finfo (a : Word) : (s.bumpI a).finfo = s.finfo := rfl
@[simp] theorem State.bumpI_draws (a : Word) : (s.bumpI a).draws = s.draws := rfl
@[simp] theorem State.bumpI_stage (a : Word) : (s.bumpI a).stage = s.stage := rfl
@[simp] theorem State.bumpI_sched (a : Word) : (s.bumpI a).sched = s.sched := rfl
@[simp] theorem State.bumpI_getV (a : Word) (r : Reg) : (s.bumpI a).getV r = s.getV r := rfl
@[simp] theorem State.bumpI_readByte (a : Word) (p : Nat) : (s.bumpI a).readByte p = s.readByte p := rfl
@[simp] theorem State.bumpI_readWord (a : Word) (p : Nat) : (s.bumpI a).readWord p = s.readWord p := rfl

/-! ## writeByte -/

@[simp] theorem State.writeByte_v (a : Nat) (b : Byte) : (s.writeByte a b).v = s.v := rfl
@[simp] theorem State.writeByte_i (a : Nat) (b : Byte) : (s.writeByte a b).i = s.i := rfl
@[simp] theorem State.writeByte_pc (a : Nat) (b : Byte) : (s.writeByte a b).pc = s.pc := rfl
@[simp] theorem State.writeByte_sp (a : Nat) (b : Byte) : (s.writeByte a b).sp = s.sp := rfl
@[simp] theorem State.writeByte_stk (a : Nat) (b : Byte) : (s.writeByte a b).stk = s.stk := rfl
@[simp] theorem State.writeByte_dt (a : Nat) (b : Byte) : (s.writeByte a b).dt = s.dt := rfl
@[simp] theorem State.writeByte_st (a : Nat) (b : Byte) : (s.writeByte a b).st = s.st := rfl
@[simp] theorem State.writeByte_mem (a : Nat) (b : Byte) : (s.writeByte a b).mem = writeCell s.mem a b := rfl
@[simp] theorem State.writeByte_fb (a : Nat) (b : Byte) : (s.writeByte a b).fb = s.fb := rfl
@[simp] theorem State.writeByte_key (a : Nat) (b : Byte) : (s.writeByte a b).key = s.key := rfl
@[simp] theorem State.writeByte_mode (a : Nat) (b : Byte) : (s.writeByte a b).mode = s.mode := rfl
@[simp] theorem State.writeByte_waitx (a : Nat) (b : Byte) : (s.writeByte a b).waitx = s.waitx := rfl
@[simp] theorem State.writeByte_fcause (a : Nat) (b : Byte) : (s.writeByte a b).fcause = s.fcause := rfl
@[simp] theorem State.writeByte_finfo (a : Nat) (b : Byte) : (s.writeByte a b).finfo = s.finfo := rfl
@[simp] theorem State.writeByte_draws (a : Nat) (b : Byte) : (s.writeByte a b).draws = s.draws := rfl
@[simp] theorem State.writeByte_stage (a : Nat) (b : Byte) : (s.writeByte a b).stage = s.stage := rfl
@[simp] theorem State.writeByte_sched (a : Nat) (b : Byte) : (s.writeByte a b).sched = s.sched := rfl
@[simp] theorem State.writeByte_getV (a : Nat) (b : Byte) (r : Reg) : (s.writeByte a b).getV r = s.getV r := rfl

/-! ## tick -/

@[simp] theorem State.tick_v : (s.tick).v = s.v := rfl
@[simp] theorem State.tick_i : (s.tick).i = s.i := rfl
@[simp] theorem State.tick_pc : (s.tick).pc = s.pc := rfl
@[simp] theorem State.tick_sp : (s.tick).sp = s.sp := rfl
@[simp] theorem State.tick_stk : (s.tick).stk = s.stk := rfl
@[simp] theorem State.tick_dt : (s.tick).dt = countDown s.dt := rfl
@[simp] theorem State.tick_st : (s.tick).st = countDown s.st := rfl
@[simp] theorem State.tick_mem : (s.tick).mem = s.mem := rfl
@[simp] theorem State.tick_fb : (s.tick).fb = s.fb := rfl
@[simp] theorem State.tick_key : (s.tick).key = s.key := rfl
@[simp] theorem State.tick_mode : (s.tick).mode = s.mode := rfl
@[simp] theorem State.tick_waitx : (s.tick).waitx = s.waitx := rfl
@[simp] theorem State.tick_fcause : (s.tick).fcause = s.fcause := rfl
@[simp] theorem State.tick_finfo : (s.tick).finfo = s.finfo := rfl
@[simp] theorem State.tick_draws : (s.tick).draws = s.draws := rfl
@[simp] theorem State.tick_stage : (s.tick).stage = s.stage := rfl
@[simp] theorem State.tick_sched : (s.tick).sched = s.sched := rfl
@[simp] theorem State.tick_getV (r : Reg) : (s.tick).getV r = s.getV r := rfl
@[simp] theorem State.tick_readByte (p : Nat) : (s.tick).readByte p = s.readByte p := rfl
@[simp] theorem State.tick_readWord (p : Nat) : (s.tick).readWord p = s.readWord p := rfl

/-! ## completeWait -/

@[simp] theorem State.completeWait_v (k : Key) : (s.completeWait k).v = s.v.set s.waitx (BitVec.ofNat 8 k.val) := rfl
@[simp] theorem State.completeWait_i (k : Key) : (s.completeWait k).i = s.i := rfl
@[simp] theorem State.completeWait_pc (k : Key) : (s.completeWait k).pc = s.pc + 2 := rfl
@[simp] theorem State.completeWait_sp (k : Key) : (s.completeWait k).sp = s.sp := rfl
@[simp] theorem State.completeWait_stk (k : Key) : (s.completeWait k).stk = s.stk := rfl
@[simp] theorem State.completeWait_dt (k : Key) : (s.completeWait k).dt = s.dt := rfl
@[simp] theorem State.completeWait_st (k : Key) : (s.completeWait k).st = s.st := rfl
@[simp] theorem State.completeWait_mem (k : Key) : (s.completeWait k).mem = s.mem := rfl
@[simp] theorem State.completeWait_fb (k : Key) : (s.completeWait k).fb = s.fb := rfl
@[simp] theorem State.completeWait_key (k : Key) : (s.completeWait k).key = s.key := rfl
@[simp] theorem State.completeWait_mode (k : Key) : (s.completeWait k).mode = .run := rfl
@[simp] theorem State.completeWait_waitx (k : Key) : (s.completeWait k).waitx = s.waitx := rfl
@[simp] theorem State.completeWait_fcause (k : Key) : (s.completeWait k).fcause = s.fcause := rfl
@[simp] theorem State.completeWait_finfo (k : Key) : (s.completeWait k).finfo = s.finfo := rfl
@[simp] theorem State.completeWait_draws (k : Key) : (s.completeWait k).draws = s.draws := rfl
@[simp] theorem State.completeWait_stage (k : Key) : (s.completeWait k).stage = s.stage := rfl
@[simp] theorem State.completeWait_sched (k : Key) : (s.completeWait k).sched = s.sched := rfl
@[simp] theorem State.completeWait_readByte (k : Key) (p : Nat) : (s.completeWait k).readByte p = s.readByte p := rfl
@[simp] theorem State.completeWait_readWord (k : Key) (p : Nat) : (s.completeWait k).readWord p = s.readWord p := rfl

/-! ## writeFlagged -/

@[simp] theorem State.writeFlagged_v (x : Reg) (f : Bool) (b : Byte) : (s.writeFlagged x f b).v = (s.v.set vf (flagByte f)).set x b := rfl
@[simp] theorem State.writeFlagged_i (x : Reg) (f : Bool) (b : Byte) : (s.writeFlagged x f b).i = s.i := rfl
@[simp] theorem State.writeFlagged_pc (x : Reg) (f : Bool) (b : Byte) : (s.writeFlagged x f b).pc = s.pc + 2 := rfl
@[simp] theorem State.writeFlagged_sp (x : Reg) (f : Bool) (b : Byte) : (s.writeFlagged x f b).sp = s.sp := rfl
@[simp] theorem State.writeFlagged_stk (x : Reg) (f : Bool) (b : Byte) : (s.writeFlagged x f b).stk = s.stk := rfl
@[simp] theorem State.writeFlagged_dt (x : Reg) (f : Bool) (b : Byte) : (s.writeFlagged x f b).dt = s.dt := rfl
@[simp] theorem State.writeFlagged_st (x : Reg) (f : Bool) (b : Byte) : (s.writeFlagged x f b).st = s.st := rfl
@[simp] theorem State.writeFlagged_mem (x : Reg) (f : Bool) (b : Byte) : (s.writeFlagged x f b).mem = s.mem := rfl
@[simp] theorem State.writeFlagged_fb (x : Reg) (f : Bool) (b : Byte) : (s.writeFlagged x f b).fb = s.fb := rfl
@[simp] theorem State.writeFlagged_key (x : Reg) (f : Bool) (b : Byte) : (s.writeFlagged x f b).key = s.key := rfl
@[simp] theorem State.writeFlagged_mode (x : Reg) (f : Bool) (b : Byte) : (s.writeFlagged x f b).mode = s.mode := rfl
@[simp] theorem State.writeFlagged_waitx (x : Reg) (f : Bool) (b : Byte) : (s.writeFlagged x f b).waitx = s.waitx := rfl
@[simp] theorem State.writeFlagged_fcause (x : Reg) (f : Bool) (b : Byte) : (s.writeFlagged x f b).fcause = s.fcause := rfl
@[simp] theorem State.writeFlagged_finfo (x : Reg) (f : Bool) (b : Byte) : (s.writeFlagged x f b).finfo = s.finfo := rfl
@[simp] theorem State.writeFlagged_draws (x : Reg) (f : Bool) (b : Byte) : (s.writeFlagged x f b).draws = s.draws := rfl
@[simp] theorem State.writeFlagged_stage (x : Reg) (f : Bool) (b : Byte) : (s.writeFlagged x f b).stage = s.stage := rfl
@[simp] theorem State.writeFlagged_sched (x : Reg) (f : Bool) (b : Byte) : (s.writeFlagged x f b).sched = s.sched := rfl
@[simp] theorem State.writeFlagged_readByte (x : Reg) (f : Bool) (b : Byte) (p : Nat) : (s.writeFlagged x f b).readByte p = s.readByte p := rfl
@[simp] theorem State.writeFlagged_readWord (x : Reg) (f : Bool) (b : Byte) (p : Nat) : (s.writeFlagged x f b).readWord p = s.readWord p := rfl

/-! ## Updates that overwrite -/

@[simp] theorem State.setSt_setSt (a b : Byte) : (s.setSt a).setSt b = s.setSt b := rfl
@[simp] theorem State.setDt_setDt (a b : Byte) : (s.setDt a).setDt b = s.setDt b := rfl
@[simp] theorem State.setPc_setPc (a b : Word) : (s.setPc a).setPc b = s.setPc b := rfl
@[simp] theorem State.setI_setI (a b : Word) : (s.setI a).setI b = s.setI b := rfl
@[simp] theorem State.setStage_setStage (a b : BootStage) : (s.setStage a).setStage b = s.setStage b := rfl
@[simp] theorem State.setStage_self : s.setStage s.stage = s := rfl
@[simp] theorem State.setSched_self : s.setSched s.sched = s := rfl

end Sys2Proof.Machine
end

