-- ==== Sys2Proof/Laws/Memory.lean ====
section
/-! SUPPORT. Memory: reading after writing, and the canonical form that every memory operation
keeps (`20_memory.md` R44; log 5). -/

namespace Sys2Proof.Machine

theorem readCell_cellFor_append (m : Memory) (a p : Nat) (b : Byte) :
    readCell (cellFor a b ++ m) p =
      if a = p then (if b = resetByte a then readCell m p else b) else readCell m p := by
  unfold cellFor
  split <;> simp [readCell]

/-- Below the first listed address every byte reads as its reset contents. -/
theorem readCell_below (m : Memory) (lo p : Nat) (h : Memory.wfFrom lo m = true) (hp : p < lo) :
    readCell m p = resetByte p := by
  induction m generalizing lo with
  | nil => rfl
  | cons c m ih =>
    obtain ⟨k, c⟩ := c
    simp only [Memory.wfFrom, Bool.and_eq_true, decide_eq_true_eq] at h
    have hk : k ≠ p := by omega
    simpa [readCell, hk] using ih (k + 1) h.2 (by omega)

theorem readCell_writeCell_same (m : Memory) (lo a : Nat) (b : Byte)
    (h : Memory.wfFrom lo m = true) : readCell (writeCell m a b) a = b := by
  induction m generalizing lo with
  | nil =>
    simp only [writeCell, cellFor]
    split
    · next hb => simp [readCell, hb]
    · simp [readCell]
  | cons c m ih =>
    obtain ⟨k, c⟩ := c
    have hm := h
    simp only [Memory.wfFrom, Bool.and_eq_true, decide_eq_true_eq] at h
    have below : readCell m k = resetByte k := readCell_below m (k + 1) k h.2 (by omega)
    simp only [writeCell]
    split
    · next hlt =>
      have := readCell_below ((k, c) :: m) k a (by simp_all [Memory.wfFrom]) hlt
      rw [readCell_cellFor_append, if_pos rfl, this]
      split <;> simp_all
    · split
      · next heq =>
        subst heq
        rw [readCell_cellFor_append, if_pos rfl, below]
        split <;> simp_all
      · next hne => simpa [readCell, Ne.symm hne] using ih (k + 1) h.2

theorem readCell_writeCell_ne (m : Memory) (a p : Nat) (b : Byte) (h : p ≠ a) :
    readCell (writeCell m a b) p = readCell m p := by
  induction m with
  | nil =>
    simp only [writeCell, cellFor]
    split <;> simp [readCell, Ne.symm h]
  | cons c m ih =>
    obtain ⟨k, c⟩ := c
    simp only [writeCell]
    split
    · simp [readCell_cellFor_append, Ne.symm h]
    · split
      · next heq => simp [readCell_cellFor_append, Ne.symm h, readCell, ← heq]
      · simp [readCell, ih]

theorem wfFrom_mono (m : Memory) (lo lo' : Nat) (hl : lo' ≤ lo) (h : Memory.wfFrom lo m = true) :
    Memory.wfFrom lo' m = true := by
  cases m with
  | nil => rfl
  | cons c m =>
    simp only [Memory.wfFrom, Bool.and_eq_true, decide_eq_true_eq] at h ⊢
    exact ⟨⟨⟨by omega, h.1.1.2⟩, h.1.2⟩, h.2⟩

theorem wfFrom_cellFor_append (m : Memory) (lo a : Nat) (b : Byte) (hlo : lo ≤ a)
    (ha : a < Config.memSize) (h : Memory.wfFrom (a + 1) m = true) :
    Memory.wfFrom lo (cellFor a b ++ m) = true := by
  unfold cellFor
  split
  · exact wfFrom_mono m (a + 1) lo (by omega) h
  · next hb => simp [Memory.wfFrom, hlo, ha, hb, h]

theorem wfFrom_writeCell (m : Memory) (lo a : Nat) (b : Byte) (hlo : lo ≤ a)
    (ha : a < Config.memSize) (h : Memory.wfFrom lo m = true) :
    Memory.wfFrom lo (writeCell m a b) = true := by
  induction m generalizing lo with
  | nil => simpa [writeCell] using wfFrom_cellFor_append [] lo a b hlo ha rfl
  | cons c m ih =>
    obtain ⟨k, c⟩ := c
    have hm := h
    simp only [Memory.wfFrom, Bool.and_eq_true, decide_eq_true_eq] at h
    simp only [writeCell]
    split
    · next hlt =>
      refine wfFrom_cellFor_append _ lo a b hlo ha ?_
      simp only [Memory.wfFrom, Bool.and_eq_true, decide_eq_true_eq]
      exact ⟨⟨⟨by omega, h.1.1.2⟩, h.1.2⟩, h.2⟩
    · split
      · next heq => exact wfFrom_cellFor_append m lo a b hlo ha (heq ▸ h.2)
      · next hlt hne =>
        simp only [Memory.wfFrom, Bool.and_eq_true, decide_eq_true_eq]
        exact ⟨h.1, ih (k + 1) (by omega) h.2⟩

/-- A store inside memory keeps the canonical form. -/
theorem wf_writeCell (m : Memory) (a : Nat) (b : Byte) (ha : a < Config.memSize)
    (h : Memory.wf m = true) : Memory.wf (writeCell m a b) = true :=
  wfFrom_writeCell m 0 a b (Nat.zero_le a) ha h

theorem reset_mem_wf : Memory.wf State.reset.mem = true := rfl

/-- One byte stored: the byte itself reads as stored. -/
theorem State.readByte_writeByte_same (s : State) (a : Nat) (b : Byte)
    (h : Memory.wf s.mem = true) : (s.writeByte a b).readByte a = b :=
  readCell_writeCell_same s.mem 0 a b h

/-- One byte stored: every other byte reads as before. -/
theorem State.readByte_writeByte_ne (s : State) (a p : Nat) (b : Byte) (h : p ≠ a) :
    (s.writeByte a b).readByte p = s.readByte p :=
  readCell_writeCell_ne s.mem a p b h

/-! ## Storing bytes: only the memory changes -/

theorem State.storeBytes_eq (s : State) (a : Nat) (bs : List Byte) :
    s.storeBytes a bs = s.setMem (s.storeBytes a bs).mem := by
  induction bs generalizing s a with
  | nil => rfl
  | cons b bs ih =>
    simp only [State.storeBytes]
    rw [ih]
    rfl

theorem State.storeBytes_wf (s : State) (a : Nat) (bs : List Byte)
    (ha : a + bs.length ≤ Config.memSize) (h : Memory.wf s.mem = true) :
    Memory.wf (s.storeBytes a bs).mem = true := by
  induction bs generalizing s a with
  | nil => exact h
  | cons b bs ih =>
    simp only [List.length_cons] at ha
    exact ih (s.writeByte a b) (a + 1) (by omega) (wf_writeCell s.mem a b (by omega) h)

theorem State.readByte_storeBytes_below (s : State) (a p : Nat) (bs : List Byte) (h : p < a) :
    (s.storeBytes a bs).readByte p = s.readByte p := by
  induction bs generalizing s a with
  | nil => rfl
  | cons b bs ih =>
    simp only [State.storeBytes]
    rw [ih _ _ (by omega), State.readByte_writeByte_ne _ _ _ _ (by omega)]

/-- Every byte outside the stored ones reads as before. -/
theorem State.readByte_storeBytes_outside (s : State) (a p : Nat) (bs : List Byte)
    (h : p < a ∨ a + bs.length ≤ p) : (s.storeBytes a bs).readByte p = s.readByte p := by
  induction bs generalizing s a with
  | nil => rfl
  | cons b bs ih =>
    simp only [List.length_cons] at h
    simp only [State.storeBytes]
    rw [ih _ _ (by omega), State.readByte_writeByte_ne _ _ _ _ (by omega)]

/-- Every stored byte reads as stored. -/
theorem State.readByte_storeBytes_inside (s : State) (a j : Nat) (bs : List Byte)
    (ha : a + bs.length ≤ Config.memSize) (hj : j < bs.length) (h : Memory.wf s.mem = true) :
    (s.storeBytes a bs).readByte (a + j) = bs[j] := by
  induction bs generalizing s a j with
  | nil => exact absurd hj (Nat.not_lt_zero j)
  | cons b bs ih =>
    simp only [List.length_cons] at ha hj
    have hw := wf_writeCell s.mem a b (by omega) h
    cases j with
    | zero =>
      simp only [State.storeBytes, Nat.add_zero, List.getElem_cons_zero]
      rw [State.readByte_storeBytes_below _ _ _ _ (by omega)]
      exact State.readByte_writeByte_same s a b h
    | succ j =>
      have := ih (s.writeByte a b) (a + 1) j (by omega) (by omega) hw
      simpa [State.storeBytes, Nat.add_assoc, Nat.add_comm 1 j] using this

theorem State.readBytes_length (s : State) (a n : Nat) : (s.readBytes a n).length = n := by
  induction n generalizing a with
  | zero => rfl
  | succ n ih => simp [State.readBytes, ih]

theorem State.readBytes_getElem (s : State) (a n j : Nat) (h : j < (s.readBytes a n).length) :
    (s.readBytes a n)[j] = s.readByte (a + j) := by
  induction n generalizing a j with
  | zero => simp [State.readBytes] at h
  | succ n ih =>
    cases j with
    | zero => rfl
    | succ j =>
      simp only [State.readBytes, List.getElem_cons_succ]
      rw [ih]
      congr 1
      omega

end Sys2Proof.Machine
end

