-- ==== Sys2Proof/Laws/Registers.lean ====
section
/-! SUPPORT. General registers, the flag register, the call stack, and the block transfers. -/

namespace Sys2Proof.Machine

@[simp] theorem State.getV_setV_same (s : State) (x : Reg) (b : Byte) : (s.setV x b).getV x = b := by
  simp [State.getV]

theorem State.getV_setV_ne (s : State) (x r : Reg) (b : Byte) (h : r ≠ x) :
    (s.setV x b).getV r = s.getV r := by
  have : (x : Nat) ≠ r := fun e => h (Fin.ext e.symm)
  simp [State.getV, this]

theorem State.getV_setV (s : State) (x r : Reg) (b : Byte) :
    (s.setV x b).getV r = if r = x then b else s.getV r := by
  split
  · next h => rw [h, State.getV_setV_same]
  · next h => exact State.getV_setV_ne s x r b h

/-- With x = F the result stands, else VF is the flag and Vx the result (R122). -/
theorem State.getV_writeFlagged (s : State) (x r : Reg) (f : Bool) (b : Byte) :
    (s.writeFlagged x f b).getV r =
      if r = x then b else if r = vf then flagByte f else s.getV r := by
  simp [State.writeFlagged, State.getV_setV]

/-! ## Call stack -/

/-- All that a push can do. -/
theorem State.pushStack_cases (s : State) (w : Word) :
    (∃ h : s.sp.toNat < 16,
      s.pushStack w = some ((s.setStk (s.stk.set s.sp.toNat w h)).setSp (s.sp + 1))) ∨
    (16 ≤ s.sp.toNat ∧ s.pushStack w = none) := by
  unfold State.pushStack
  split
  · next h => exact .inl ⟨h, rfl⟩
  · next h => exact .inr ⟨by omega, rfl⟩

theorem State.stackEntry_eq_some (s : State) (j : Nat) (h : j < 16) :
    s.stackEntry j = some (s.stk[j]) := by
  simp [State.stackEntry, h]

theorem State.stackEntry_eq_none (s : State) (j : Nat) (h : 16 ≤ j) : s.stackEntry j = none := by
  simp [State.stackEntry, h]

/-! ## Storing registers: only the memory changes -/

theorem State.storeRegs_eq (s : State) (a n : Nat) :
    s.storeRegs a n = s.setMem (s.storeRegs a n).mem := by
  induction n with
  | zero => rfl
  | succ n ih =>
    simp only [State.storeRegs]
    split
    · conv_lhs => rw [ih]
      rfl
    · exact ih

@[simp] theorem State.storeRegs_getV (s : State) (a n : Nat) (r : Reg) :
    (s.storeRegs a n).getV r = s.getV r := by
  rw [State.storeRegs_eq]
  rfl

theorem State.storeRegs_wf (s : State) (a n : Nat) (ha : a + n ≤ Config.memSize)
    (h : Memory.wf s.mem = true) : Memory.wf (s.storeRegs a n).mem = true := by
  induction n with
  | zero => exact h
  | succ n ih =>
    simp only [State.storeRegs]
    split
    · exact wf_writeCell _ _ _ (by omega) (ih (by omega))
    · exact ih (by omega)

theorem State.readByte_storeRegs_outside (s : State) (a n p : Nat) (h : p < a ∨ a + n ≤ p) :
    (s.storeRegs a n).readByte p = s.readByte p := by
  induction n with
  | zero => rfl
  | succ n ih =>
    simp only [State.storeRegs]
    split
    · rw [State.readByte_writeByte_ne _ _ _ _ (by omega)]
      exact ih (by omega)
    · exact ih (by omega)

theorem State.readByte_storeRegs_inside (s : State) (a n : Nat) (j : Reg)
    (ha : a + n ≤ Config.memSize) (hj : j.val < n) (h : Memory.wf s.mem = true) :
    (s.storeRegs a n).readByte (a + j.val) = s.getV j := by
  induction n with
  | zero => exact absurd hj (Nat.not_lt_zero _)
  | succ n ih =>
    have hw := s.storeRegs_wf a n (by omega) h
    simp only [State.storeRegs]
    split
    · next hn =>
      rcases Nat.lt_or_ge j.val n with hlt | hge
      · rw [State.readByte_writeByte_ne _ _ _ _ (by omega)]
        exact ih (by omega) hlt
      · have hjn : j = ⟨n, hn⟩ := Fin.ext (by simp; omega)
        subst hjn
        exact State.readByte_writeByte_same _ _ _ hw
    · next hn => exact ih (by omega) (by omega)

/-! ## Loading registers: only V changes -/

theorem State.loadRegs_eq (s : State) (a n : Nat) :
    s.loadRegs a n = { s with v := (s.loadRegs a n).v } := by
  induction n with
  | zero => rfl
  | succ n ih =>
    simp only [State.loadRegs]
    split
    · conv_lhs => rw [ih]
      rfl
    · exact ih

theorem State.getV_loadRegs (s : State) (a n : Nat) (r : Reg) :
    (s.loadRegs a n).getV r = if r.val < n then s.readByte (a + r.val) else s.getV r := by
  induction n with
  | zero => rfl
  | succ n ih =>
    simp only [State.loadRegs]
    split
    · next hn =>
      rw [State.getV_setV, ih]
      rcases Nat.lt_trichotomy r.val n with hlt | heq | hgt
      · have : r ≠ ⟨n, hn⟩ := fun e => by simp [e] at hlt
        simp [this, hlt, Nat.lt_succ_of_lt hlt]
      · have : r = ⟨n, hn⟩ := Fin.ext heq
        subst this
        simp
      · have : r ≠ ⟨n, hn⟩ := fun e => by simp [e] at hgt
        simp [this, Nat.not_lt.mpr (Nat.le_of_lt hgt), Nat.not_lt.mpr (Nat.succ_le_of_lt hgt)]
    · next hn =>
      rw [ih]
      have h1 : r.val < n := by omega
      simp [h1, Nat.lt_succ_of_lt h1]

end Sys2Proof.Machine
end

