-- ==== Sys2Proof/Laws/Faults.lean ====
section
/-! SUPPORT. Taking a fault, the range check of data accesses, and frames. -/

namespace Sys2Proof.Machine

/-- The range test as a comparison of the first address outside the access (R45). -/
theorem State.dataOob_iff (s : State) (len : Nat) :
    s.dataOob len = true ↔ 1 ≤ len ∧ 4096 < s.i.toNat + len := by
  unfold State.dataOob
  rw [Bool.and_eq_true, decide_eq_true_eq, decide_eq_true_eq]
  unfold State.dataAddr
  omega

/-- All that a data access can do: the action, or DATA_OOB with nothing accessed (R45, R47). -/
theorem State.withData_cases (s : State) (len : Nat) (act : State → State) :
    (s.dataOob len = false ∧ s.withData len act = act s) ∨
    (s.dataOob len = true ∧ s.withData len act = s.raiseFault .dataOob s.i) := by
  unfold State.withData
  cases s.dataOob len <;> simp

theorem State.withData_ok (s : State) (len : Nat) (act : State → State)
    (h : s.dataOob len = false) : s.withData len act = act s := by
  simp [State.withData, h]

theorem State.withData_oob (s : State) (len : Nat) (act : State → State)
    (h : s.dataOob len = true) : s.withData len act = s.raiseFault .dataOob s.i := by
  simp [State.withData, h]

/-- All that a key skip can do (R150, R151). -/
theorem State.skipOnKey_cases (s : State) (x : Reg) (level : Bool) :
    (∃ h : (s.getV x).toNat < 16,
      s.skipOnKey x level = s.skipIf (s.key[(s.getV x).toNat] == level)) ∨
    (16 ≤ (s.getV x).toNat ∧
      s.skipOnKey x level = s.raiseFault .keyIndex (zextByte (s.getV x))) := by
  unfold State.skipOnKey State.keyAt
  rcases Nat.lt_or_ge (s.getV x).toNat 16 with h | h
  · exact .inl ⟨h, by simp [h]⟩
  · exact .inr ⟨h, by simp [h]⟩

/-- A fault changes MODE and the latch alone (R163). -/
theorem raiseFault_frame (s : State) (c : FaultCause) (w : Word) :
    Frame [] [.mode, .fcause, .finfo] [] s (s.raiseFault c w) where
  regs_same _ _ := rfl
  parts_same p hp := by cases p <;> simp_all [Part.same]
  mem_same _ _ := rfl

theorem setPc_frame (s : State) (w : Word) : Frame [] [] [] s (s.setPc w) where
  regs_same _ _ := rfl
  parts_same p _ := by cases p <;> rfl
  mem_same _ _ := rfl

theorem setV_frame (s : State) (x : Reg) (b : Byte) : Frame [x] [] [] s (s.setV x b) where
  regs_same r hr := State.getV_setV_ne s x r b (by simpa using hr)
  parts_same p _ := by cases p <;> rfl
  mem_same _ _ := rfl

/-- Frames compose: what neither change touches is unchanged. -/
theorem Frame.trans {r r' : List Reg} {p p' : List Part} {m m' : List Nat} {s t u : State}
    (h : Frame r p m s t) (h' : Frame r' p' m' t u) :
    Frame (r ++ r') (p ++ p') (m ++ m') s u where
  regs_same q hq := by
    simp only [List.mem_append, not_or] at hq
    rw [h'.regs_same q hq.2, h.regs_same q hq.1]
  parts_same q hq := by
    simp only [List.mem_append, not_or] at hq
    have a := h.parts_same q hq.1
    have b := h'.parts_same q hq.2
    cases q <;> simp_all [Part.same]
  mem_same a ha := by
    simp only [List.mem_append, not_or] at ha
    rw [h'.mem_same a ha.2, h.mem_same a ha.1]

/-- A frame with more allowed to change. -/
theorem Frame.weaken {r r' : List Reg} {p p' : List Part} {m m' : List Nat} {s t : State}
    (h : Frame r p m s t) (hr : r ⊆ r') (hp : p ⊆ p') (hm : m ⊆ m') : Frame r' p' m' s t where
  regs_same q hq := h.regs_same q fun hq' => hq (hr hq')
  parts_same q hq := h.parts_same q fun hq' => hq (hp hq')
  mem_same a ha := h.mem_same a fun ha' => ha (hm ha')

theorem advance_frame (s : State) : Frame [] [] [] s s.advance := setPc_frame s _

theorem skipIf_frame (s : State) (c : Bool) : Frame [] [] [] s (s.skipIf c) := setPc_frame s _

/-- A flag-writing instruction of the ALU changes Vx, VF and PC alone (R122). -/
theorem writeFlagged_frame (s : State) (x : Reg) (f : Bool) (b : Byte) :
    Frame [vf, x] [] [] s (s.writeFlagged x f b) :=
  ((setV_frame s vf (flagByte f)).trans (setV_frame _ x b)).trans (advance_frame _)

/-- A data address of an access is an address of its span. -/
theorem State.mem_dataAddrs (s : State) (len a : Nat) :
    a ∈ s.dataAddrs len ↔ s.i.toNat ≤ a ∧ a < s.i.toNat + len := by
  simp only [State.dataAddrs, State.dataAddr, List.mem_map, List.mem_range]
  constructor
  · rintro ⟨j, hj, rfl⟩
    omega
  · rintro ⟨h1, h2⟩
    exact ⟨a - s.i.toNat, by omega, by omega⟩

/-! ## Stored bytes -/

@[simp] theorem storedRegs_length (s : State) (x : Reg) :
    (storedRegs s x).length = x.val + 1 := by
  unfold storedRegs
  rw [List.length_take, List.length_ofFn]
  omega

theorem storedRegs_getElem (s : State) (x j : Reg) (h : j.val < (storedRegs s x).length) :
    (storedRegs s x)[j.val] = s.getV j :=
  List.getElem_take.trans (List.getElem_ofFn _)

@[simp] theorem storedDigits_length (s : State) (x : Reg) : (storedDigits s x).length = 3 := rfl

theorem State.afterStore_inside (s : State) (bytes : List Byte) (j : Nat) (h : j < bytes.length) :
    s.afterStore bytes (s.i.toNat + j) = bytes[j] := by
  simp [State.afterStore, State.dataAddr, h]

theorem State.afterStore_outside (s : State) (bytes : List Byte) (a : Nat)
    (h : a < s.i.toNat ∨ s.i.toNat + bytes.length ≤ a) : s.afterStore bytes a = s.readByte a := by
  unfold State.afterStore State.dataAddr
  split
  · rw [List.getD_eq_default _ _ (by omega)]
  · rfl

end Sys2Proof.Machine
end

