-- ==== Sys2Proof/Laws/Cycle.lean ====
section
/-! SUPPORT. The instruction cycle and the events: what each can do, said once. -/

namespace Sys2Proof.Machine

theorem State.fetchInRange_iff (s : State) : s.fetchInRange = true ↔ s.pc.toNat ≤ 0xFFE := by
  simp [State.fetchInRange]

@[simp] theorem State.setStage_fetchWord (s : State) (b : BootStage) :
    (s.setStage b).fetchWord = s.fetchWord := rfl

@[simp] theorem State.setSched_fetchWord (s : State) (es : List Event) :
    (s.setSched es).fetchWord = s.fetchWord := rfl

@[simp] theorem State.setStage_fetchInRange (s : State) (b : BootStage) :
    (s.setStage b).fetchInRange = s.fetchInRange := rfl

@[simp] theorem State.setSched_fetchInRange (s : State) (es : List Event) :
    (s.setSched es).fetchInRange = s.fetchInRange := rfl

/-- A held core: nothing happens. -/
theorem State.coreStep_held (s : State) (h : s.mode ≠ .run) : s.coreStep = .next s := by
  unfold State.coreStep
  cases hm : s.mode <;> simp_all

/-- A running core: one Step. -/
theorem State.coreStep_run (s : State) (h : s.mode = .run) :
    s.coreStep = (s.setStage .running).runStep := by
  unfold State.coreStep
  rw [h]

/-- All that a Step of a running core can do. -/
theorem State.runStep_cases (s : State) :
    (s.fetchInRange = true ∧ s.runStep = exec (decodeWord s.fetchWord) s) ∨
    (s.fetchInRange = false ∧ s.runStep = .next (s.raiseFault .fetchOob s.pc)) := by
  unfold State.runStep
  cases s.fetchInRange <;> simp

/-- All that one atomic event of the machine can be. -/
theorem step_cases (s : State) :
    (s.sched = [] ∧ step s = s.coreStep) ∨
    (∃ e rest, s.sched = e :: rest ∧ step s = (s.setSched rest).apply e) := by
  unfold step State.nextEvent
  cases h : s.sched with
  | nil => exact .inl ⟨rfl, rfl⟩
  | cons e rest => exact .inr ⟨e, rest, rfl, rfl⟩

/-- All that a Load can do (R193). -/
theorem State.load_cases (s : State) (image : List Byte) :
    (s.stage = .fresh ∧ image.length ≤ Config.progMax ∧
      s.load image = .next ((s.storeBytes Config.progBase image).setStage .loaded)) ∨
    (s.stage = .fresh ∧ Config.progMax < image.length ∧ s.load image = .refused .imageTooLong) ∨
    (s.stage ≠ .fresh ∧ s.load image = .refused .loadOutOfOrder) := by
  unfold State.load
  split
  · next h => exact .inr (.inr ⟨h, rfl⟩)
  · next h =>
    split
    · next h' => exact .inr (.inl ⟨not_not.mp h, h', rfl⟩)
    · next h' => exact .inl ⟨not_not.mp h, by omega, rfl⟩

/-- All that a key event can do (R171, R172). -/
theorem State.keyEvent_cases (s : State) (k : Key) (pressed : Bool) :
    (pressed = true ∧ s.mode = .waitKey ∧
      s.keyEvent k pressed = (s.setKeys (s.key.set k pressed)).completeWait k) ∨
    (¬(pressed = true ∧ s.mode = .waitKey) ∧
      s.keyEvent k pressed = s.setKeys (s.key.set k pressed)) := by
  unfold State.keyEvent
  split
  · next h =>
    simp only [Bool.and_eq_true, beq_iff_eq] at h
    exact .inl ⟨h.1, h.2, rfl⟩
  · next h =>
    simp only [Bool.and_eq_true, beq_iff_eq] at h
    exact .inr ⟨h, rfl⟩

end Sys2Proof.Machine
end

