-- ==== Sys2Proof/Laws/Display.lean ====
section
/-! SUPPORT. The framebuffer: one cell toggled, many cells toggled, the cells of a sprite. -/

namespace Sys2Proof.Machine

theorem cellAt_toggleCell (fb : Framebuffer) (r r' : Fin 32) (c c' : Fin 64) :
    cellAt (toggleCell fb r c) r' c' = if r' = r ∧ c' = c then !cellAt fb r c else cellAt fb r' c' := by
  by_cases hr : r' = r
  · subst hr
    by_cases hc : c' = c
    · subst hc
      simp [cellAt, toggleCell]
    · have : (c : Nat) ≠ c' := fun e => hc (Fin.ext e.symm)
      simp [cellAt, toggleCell, this, hc]
  · have : (r : Nat) ≠ r' := fun e => hr (Fin.ext e.symm)
    simp [cellAt, toggleCell, this, hr]

theorem cellAt_blank (r : Fin 32) (c : Fin 64) : cellAt blankFramebuffer r c = false := by
  simp [cellAt, blankFramebuffer]

/-- Framebuffers with equal cells are equal. -/
theorem framebuffer_ext (f g : Framebuffer) (h : ∀ r c, cellAt f r c = cellAt g r c) : f = g := by
  apply Vector.ext
  intro r hr
  apply Vector.ext
  intro c hc
  exact h ⟨r, hr⟩ ⟨c, hc⟩

@[simp] theorem drawCells_nil (fb : Framebuffer) : drawCells fb [] = (fb, false) := rfl

theorem foldl_drawCell_fst (cells : List (Fin 32 × Fin 64)) (fb : Framebuffer) (b b' : Bool) :
    (cells.foldl drawCell (fb, b)).1 = (cells.foldl drawCell (fb, b')).1 := by
  induction cells generalizing fb b b' with
  | nil => rfl
  | cons p cells ih => exact ih _ _ _

theorem foldl_drawCell_snd (cells : List (Fin 32 × Fin 64)) (fb : Framebuffer) (b : Bool) :
    (cells.foldl drawCell (fb, b)).2 = (b || (cells.foldl drawCell (fb, false)).2) := by
  induction cells generalizing fb b with
  | nil => simp
  | cons p cells ih =>
    simp only [List.foldl_cons, drawCell, Bool.false_or]
    rw [ih, ih (b := cellAt fb p.1 p.2), Bool.or_assoc]

theorem drawCells_cons (fb : Framebuffer) (p : Fin 32 × Fin 64) (cells : List (Fin 32 × Fin 64)) :
    drawCells fb (p :: cells) =
      ((drawCells (toggleCell fb p.1 p.2) cells).1,
        cellAt fb p.1 p.2 || (drawCells (toggleCell fb p.1 p.2) cells).2) := by
  have h : drawCells fb (p :: cells) =
      cells.foldl drawCell (toggleCell fb p.1 p.2, cellAt fb p.1 p.2) := by
    simp [drawCells, drawCell]
  rw [h]
  exact Prod.ext (foldl_drawCell_fst _ _ _ _) (foldl_drawCell_snd _ _ _)

/-- What a list of distinct cells does to one cell. -/
theorem cellAt_drawCells (cells : List (Fin 32 × Fin 64)) (hd : cells.Nodup) (fb : Framebuffer)
    (r : Fin 32) (c : Fin 64) :
    cellAt (drawCells fb cells).1 r c =
      if (r, c) ∈ cells then !cellAt fb r c else cellAt fb r c := by
  induction cells generalizing fb with
  | nil => simp
  | cons p cells ih =>
    obtain ⟨pr, pc⟩ := p
    have hp := (List.nodup_cons.mp hd)
    rw [drawCells_cons, ih hp.2, cellAt_toggleCell]
    by_cases he : (r, c) = (pr, pc)
    · obtain ⟨rfl, rfl⟩ := Prod.mk.injEq .. ▸ he
      simp [hp.1]
    · have : ¬(r = pr ∧ c = pc) := fun ⟨a, b⟩ => he (by rw [a, b])
      simp [this, he]

/-- The collision flag of a list of distinct cells: one of them was set before. -/
theorem drawCells_collided (cells : List (Fin 32 × Fin 64)) (hd : cells.Nodup) (fb : Framebuffer) :
    (drawCells fb cells).2 = true ↔ ∃ p ∈ cells, cellAt fb p.1 p.2 = true := by
  induction cells generalizing fb with
  | nil => simp
  | cons p cells ih =>
    have hp := (List.nodup_cons.mp hd)
    rw [drawCells_cons]
    simp only [Bool.or_eq_true, ih hp.2, List.exists_mem_cons_iff]
    refine or_congr_right ⟨?_, ?_⟩
    · rintro ⟨q, hq, h⟩
      refine ⟨q, hq, ?_⟩
      have : q ≠ p := fun e => hp.1 (e ▸ hq)
      rw [cellAt_toggleCell, if_neg (fun ⟨a, b⟩ => this (Prod.ext a b))] at h
      exact h
    · rintro ⟨q, hq, h⟩
      refine ⟨q, hq, ?_⟩
      have : q ≠ p := fun e => hp.1 (e ▸ hq)
      rw [cellAt_toggleCell, if_neg (fun ⟨a, b⟩ => this (Prod.ext a b))]
      exact h

/-- Which cells one sprite byte toggles. -/
theorem mem_rowCells (x0 y0 b : Byte) (r : Nat) (p : Fin 32 × Fin 64) :
    p ∈ rowCells x0 y0 r b ↔
      ∃ c, c < 8 ∧ spriteBit b c = true ∧ p = (pixelRow y0 r, pixelCol x0 c) := by
  simp only [rowCells, List.mem_map, List.mem_filter, List.mem_range]
  constructor
  · rintro ⟨c, ⟨h1, h2⟩, h3⟩
    exact ⟨c, h1, h2, h3.symm⟩
  · rintro ⟨c, h1, h2, h3⟩
    exact ⟨c, ⟨h1, h2⟩, h3.symm⟩

/-- Which cells a sprite toggles (R142). -/
theorem mem_spriteCells (x0 y0 : Byte) (bs : List Byte) (r0 : Nat) (p : Fin 32 × Fin 64) :
    p ∈ spriteCells x0 y0 r0 bs ↔
      ∃ j c, ∃ h : j < bs.length, c < 8 ∧ spriteBit bs[j] c = true ∧
        p = (pixelRow y0 (r0 + j), pixelCol x0 c) := by
  induction bs generalizing r0 with
  | nil => simp [spriteCells]
  | cons b bs ih =>
    simp only [spriteCells, List.mem_append, mem_rowCells, ih]
    constructor
    · rintro (⟨c, h1, h2, h3⟩ | ⟨j, c, h, h1, h2, h3⟩)
      · exact ⟨0, c, by simp, h1, h2, h3⟩
      · refine ⟨j + 1, c, by simpa using h, h1, by simpa using h2, ?_⟩
        rw [h3]
        congr 2
        omega
    · rintro ⟨j, c, h, h1, h2, h3⟩
      cases j with
      | zero => exact .inl ⟨c, h1, h2, h3⟩
      | succ j =>
        refine .inr ⟨j, c, by simpa using h, h1, by simpa using h2, ?_⟩
        rw [h3]
        congr 2
        omega

end Sys2Proof.Machine
end

