-- ==== Sys2Proof/Laws/PerInstr.lean ====
section
/-! SUPPORT. Statements made per instruction. Family EncodesInItsRow: the word of a well-formed
instruction matches its own row of the opcode map and no other row (`30_encoding.md` R65). -/

namespace Sys2Proof.Laws

/-! ## The four masks of the opcode map, as fields -/

theorem getLsbD_encodeNNN (t : BitVec 4) (a : Addr12) (i : Nat) :
    (encodeNNN t a).getLsbD i = if i < 12 then a.getLsbD i else t.getLsbD (i - 12) :=
  BitVec.getLsbD_append

theorem getLsbD_encodeXKK (t : BitVec 4) (x : Reg) (k : Byte) (i : Nat) :
    (encodeXKK t x k).getLsbD i = if i < 8 then k.getLsbD i
      else if i - 8 < 4 then (fieldBits x).getLsbD (i - 8) else t.getLsbD (i - 8 - 4) := by
  rw [← BitVec.getLsbD_append]
  exact BitVec.getLsbD_append

theorem getLsbD_encodeXYN (t : BitVec 4) (x y : Reg) (n : BitVec 4) (i : Nat) :
    (encodeXYN t x y n).getLsbD i = if i < 4 then n.getLsbD i
      else if i - 4 < 4 then (fieldBits y).getLsbD (i - 4)
      else if i - 4 - 4 < 4 then (fieldBits x).getLsbD (i - 4 - 4)
      else t.getLsbD (i - 4 - 4 - 4) := by
  rw [← BitVec.getLsbD_append, ← BitVec.getLsbD_append]
  exact BitVec.getLsbD_append

theorem mask_top (w : Word) : w &&& 0xF000 = encodeNNN (topOf w) 0 := by
  apply BitVec.eq_of_getLsbD_eq
  intro i hi
  rw [BitVec.getLsbD_and, getLsbD_encodeNNN, topOf, BitVec.getLsbD_extractLsb']
  interval_cases i <;> simp

theorem mask_top_lo4 (w : Word) : w &&& 0xF00F = encodeXYN (topOf w) 0 0 (nBits w) := by
  apply BitVec.eq_of_getLsbD_eq
  intro i hi
  rw [BitVec.getLsbD_and, getLsbD_encodeXYN, topOf, nBits, BitVec.getLsbD_extractLsb',
    BitVec.getLsbD_extractLsb']
  interval_cases i <;> simp [fieldBits]

theorem mask_top_lo8 (w : Word) : w &&& 0xF0FF = encodeXKK (topOf w) 0 (kkOf w) := by
  apply BitVec.eq_of_getLsbD_eq
  intro i hi
  rw [BitVec.getLsbD_and, getLsbD_encodeXKK, topOf, kkOf, BitVec.getLsbD_extractLsb',
    BitVec.getLsbD_extractLsb']
  interval_cases i <;> simp [fieldBits]

theorem mask_all (w : Word) : w &&& 0xFFFF = w := by
  apply BitVec.eq_of_getLsbD_eq
  intro i hi
  interval_cases i <;> simp

/-! ## Matching a row, as fields -/

theorem matches_all (k : Nat) (t : BitVec 4) (a : Addr12) (w : Word) :
    (⟨k, 0xFFFF#16, encodeNNN t a⟩ : OpcodeRow).matchesWord w =
      decide (topOf w = t ∧ nnnOf w = a) := by
  rw [Bool.eq_iff_iff, OpcodeRow.matchesWord, decide_eq_true_iff, decide_eq_true_iff]
  change w &&& 0xFFFF = _ ↔ _
  rw [mask_all]
  constructor
  · rintro rfl
    simp
  · rintro ⟨rfl, rfl⟩
    exact (encodeNNN_fields w).symm

theorem matches_top (k : Nat) (t : BitVec 4) (w : Word) :
    (⟨k, 0xF000#16, encodeNNN t 0#12⟩ : OpcodeRow).matchesWord w = decide (topOf w = t) := by
  rw [Bool.eq_iff_iff, OpcodeRow.matchesWord, decide_eq_true_iff, decide_eq_true_iff]
  change w &&& 0xF000 = _ ↔ _
  rw [mask_top]
  exact ⟨fun h => by simpa using congrArg topOf h, fun h => h ▸ rfl⟩

theorem matches_lo4 (k : Nat) (t n : BitVec 4) (w : Word) :
    (⟨k, 0xF00F#16, encodeXYN t 0 0 n⟩ : OpcodeRow).matchesWord w =
      decide (topOf w = t ∧ nBits w = n) := by
  rw [Bool.eq_iff_iff, OpcodeRow.matchesWord, decide_eq_true_iff, decide_eq_true_iff]
  change w &&& 0xF00F = _ ↔ _
  rw [mask_top_lo4]
  exact ⟨fun h => ⟨by simpa using congrArg topOf h, by simpa using congrArg nBits h⟩,
    fun ⟨h, h'⟩ => by rw [h, h']⟩

theorem matches_lo8 (k : Nat) (t : BitVec 4) (b : Byte) (w : Word) :
    (⟨k, 0xF0FF#16, encodeXKK t 0 b⟩ : OpcodeRow).matchesWord w =
      decide (topOf w = t ∧ kkOf w = b) := by
  rw [Bool.eq_iff_iff, OpcodeRow.matchesWord, decide_eq_true_iff, decide_eq_true_iff]
  change w &&& 0xF0FF = _ ↔ _
  rw [mask_top_lo8]
  exact ⟨fun h => ⟨by simpa using congrArg topOf h, by simpa using congrArg kkOf h⟩,
    fun ⟨h, h'⟩ => by rw [h, h']⟩

/-! ## The opcode map with its patterns put together from fields -/

theorem opcodeRowsA_fields : opcodeRowsA =
    [⟨1, 0xFFFF, encodeNNN 0x0 0x000⟩,
     ⟨2, 0xFFFF, encodeNNN 0x0 0x0E0⟩,
     ⟨3, 0xFFFF, encodeNNN 0x0 0x0EE⟩,
     ⟨4, 0xF000, encodeNNN 0x1 0⟩,
     ⟨5, 0xF000, encodeNNN 0x2 0⟩,
     ⟨6, 0xF000, encodeNNN 0x3 0⟩,
     ⟨7, 0xF000, encodeNNN 0x4 0⟩,
     ⟨8, 0xF00F, encodeXYN 0x5 0 0 0x0⟩,
     ⟨9, 0xF000, encodeNNN 0x6 0⟩,
     ⟨10, 0xF000, encodeNNN 0x7 0⟩,
     ⟨11, 0xF00F, encodeXYN 0x8 0 0 0x0⟩,
     ⟨12, 0xF00F, encodeXYN 0x8 0 0 0x1⟩] := by
  decide

theorem opcodeRowsB_fields : opcodeRowsB =
    [⟨13, 0xF00F, encodeXYN 0x8 0 0 0x2⟩,
     ⟨14, 0xF00F, encodeXYN 0x8 0 0 0x3⟩,
     ⟨15, 0xF00F, encodeXYN 0x8 0 0 0x4⟩,
     ⟨16, 0xF00F, encodeXYN 0x8 0 0 0x5⟩,
     ⟨17, 0xF00F, encodeXYN 0x8 0 0 0x6⟩,
     ⟨18, 0xF00F, encodeXYN 0x8 0 0 0x7⟩,
     ⟨19, 0xF00F, encodeXYN 0x8 0 0 0xE⟩,
     ⟨20, 0xF00F, encodeXYN 0x9 0 0 0x0⟩,
     ⟨21, 0xF000, encodeNNN 0xA 0⟩,
     ⟨22, 0xF000, encodeNNN 0xB 0⟩,
     ⟨23, 0xF000, encodeNNN 0xC 0⟩,
     ⟨24, 0xF000, encodeNNN 0xD 0⟩] := by
  decide

theorem opcodeRowsC_fields : opcodeRowsC =
    [⟨25, 0xF0FF, encodeXKK 0xE 0 0x9E⟩,
     ⟨26, 0xF0FF, encodeXKK 0xE 0 0xA1⟩,
     ⟨27, 0xF0FF, encodeXKK 0xF 0 0x07⟩,
     ⟨28, 0xF0FF, encodeXKK 0xF 0 0x0A⟩,
     ⟨29, 0xF0FF, encodeXKK 0xF 0 0x15⟩,
     ⟨30, 0xF0FF, encodeXKK 0xF 0 0x18⟩,
     ⟨31, 0xF0FF, encodeXKK 0xF 0 0x1E⟩,
     ⟨32, 0xF0FF, encodeXKK 0xF 0 0x29⟩,
     ⟨33, 0xF0FF, encodeXKK 0xF 0 0x33⟩,
     ⟨34, 0xF0FF, encodeXKK 0xF 0 0x55⟩,
     ⟨35, 0xF0FF, encodeXKK 0xF 0 0x65⟩] := by
  decide

/-- What the family says of one instruction. -/
def EncodesInItsRow.Statement (i : Instr) : Prop :=
  WellFormed i = true → ∀ r ∈ opcodeRows, r.matchesWord (encode i) = true ↔ r.num = i.row

/-- The family's statement, with the opcode map written out as fields. -/
theorem encodesInItsRow_of_fields (i : Instr)
    (hA : ∀ r ∈ opcodeRowsA, r.matchesWord (encode i) = true ↔ r.num = i.row)
    (hB : ∀ r ∈ opcodeRowsB, r.matchesWord (encode i) = true ↔ r.num = i.row)
    (hC : ∀ r ∈ opcodeRowsC, r.matchesWord (encode i) = true ↔ r.num = i.row) :
    EncodesInItsRow.Statement i := by
  intro _ r hr
  simp only [opcodeRows, List.mem_append] at hr
  rcases hr with (h | h) | h
  · exact hA r h
  · exact hB r h
  · exact hC r h

theorem EncodesInItsRow.nop : EncodesInItsRow.Statement .nop := by
  intro _
  decide

theorem EncodesInItsRow.cls : EncodesInItsRow.Statement .cls := by
  intro _
  decide

theorem EncodesInItsRow.ret : EncodesInItsRow.Statement .ret := by
  intro _
  decide

theorem EncodesInItsRow.jp (nnn : Addr12) : EncodesInItsRow.Statement (.jp nnn) := by
  apply encodesInItsRow_of_fields <;>
    simp [opcodeRowsA_fields, opcodeRowsB_fields, opcodeRowsC_fields, encode, Instr.row,
      matches_all, matches_top, matches_lo4, matches_lo8]

theorem EncodesInItsRow.call (nnn : Addr12) : EncodesInItsRow.Statement (.call nnn) := by
  apply encodesInItsRow_of_fields <;>
    simp [opcodeRowsA_fields, opcodeRowsB_fields, opcodeRowsC_fields, encode, Instr.row,
      matches_all, matches_top, matches_lo4, matches_lo8]

theorem EncodesInItsRow.seImm (x : Reg) (kk : Byte) : EncodesInItsRow.Statement (.seImm x kk) := by
  apply encodesInItsRow_of_fields <;>
    simp [opcodeRowsA_fields, opcodeRowsB_fields, opcodeRowsC_fields, encode, Instr.row,
      matches_all, matches_top, matches_lo4, matches_lo8]

theorem EncodesInItsRow.sneImm (x : Reg) (kk : Byte) : EncodesInItsRow.Statement (.sneImm x kk) := by
  apply encodesInItsRow_of_fields <;>
    simp [opcodeRowsA_fields, opcodeRowsB_fields, opcodeRowsC_fields, encode, Instr.row,
      matches_all, matches_top, matches_lo4, matches_lo8]

theorem EncodesInItsRow.seReg (x : Reg) (y : Reg) : EncodesInItsRow.Statement (.seReg x y) := by
  apply encodesInItsRow_of_fields <;>
    simp [opcodeRowsA_fields, opcodeRowsB_fields, opcodeRowsC_fields, encode, Instr.row,
      matches_all, matches_top, matches_lo4, matches_lo8]

theorem EncodesInItsRow.ldImm (x : Reg) (kk : Byte) : EncodesInItsRow.Statement (.ldImm x kk) := by
  apply encodesInItsRow_of_fields <;>
    simp [opcodeRowsA_fields, opcodeRowsB_fields, opcodeRowsC_fields, encode, Instr.row,
      matches_all, matches_top, matches_lo4, matches_lo8]

theorem EncodesInItsRow.addImm (x : Reg) (kk : Byte) : EncodesInItsRow.Statement (.addImm x kk) := by
  apply encodesInItsRow_of_fields <;>
    simp [opcodeRowsA_fields, opcodeRowsB_fields, opcodeRowsC_fields, encode, Instr.row,
      matches_all, matches_top, matches_lo4, matches_lo8]

theorem EncodesInItsRow.ldReg (x : Reg) (y : Reg) : EncodesInItsRow.Statement (.ldReg x y) := by
  apply encodesInItsRow_of_fields <;>
    simp [opcodeRowsA_fields, opcodeRowsB_fields, opcodeRowsC_fields, encode, Instr.row,
      matches_all, matches_top, matches_lo4, matches_lo8]

theorem EncodesInItsRow.orReg (x : Reg) (y : Reg) : EncodesInItsRow.Statement (.orReg x y) := by
  apply encodesInItsRow_of_fields <;>
    simp [opcodeRowsA_fields, opcodeRowsB_fields, opcodeRowsC_fields, encode, Instr.row,
      matches_all, matches_top, matches_lo4, matches_lo8]

theorem EncodesInItsRow.andReg (x : Reg) (y : Reg) : EncodesInItsRow.Statement (.andReg x y) := by
  apply encodesInItsRow_of_fields <;>
    simp [opcodeRowsA_fields, opcodeRowsB_fields, opcodeRowsC_fields, encode, Instr.row,
      matches_all, matches_top, matches_lo4, matches_lo8]

theorem EncodesInItsRow.xorReg (x : Reg) (y : Reg) : EncodesInItsRow.Statement (.xorReg x y) := by
  apply encodesInItsRow_of_fields <;>
    simp [opcodeRowsA_fields, opcodeRowsB_fields, opcodeRowsC_fields, encode, Instr.row,
      matches_all, matches_top, matches_lo4, matches_lo8]

theorem EncodesInItsRow.addReg (x : Reg) (y : Reg) : EncodesInItsRow.Statement (.addReg x y) := by
  apply encodesInItsRow_of_fields <;>
    simp [opcodeRowsA_fields, opcodeRowsB_fields, opcodeRowsC_fields, encode, Instr.row,
      matches_all, matches_top, matches_lo4, matches_lo8]

theorem EncodesInItsRow.subReg (x : Reg) (y : Reg) : EncodesInItsRow.Statement (.subReg x y) := by
  apply encodesInItsRow_of_fields <;>
    simp [opcodeRowsA_fields, opcodeRowsB_fields, opcodeRowsC_fields, encode, Instr.row,
      matches_all, matches_top, matches_lo4, matches_lo8]

theorem EncodesInItsRow.shr (x : Reg) (y : Reg) : EncodesInItsRow.Statement (.shr x y) := by
  apply encodesInItsRow_of_fields <;>
    simp [opcodeRowsA_fields, opcodeRowsB_fields, opcodeRowsC_fields, encode, Instr.row,
      matches_all, matches_top, matches_lo4, matches_lo8]

theorem EncodesInItsRow.subnReg (x : Reg) (y : Reg) : EncodesInItsRow.Statement (.subnReg x y) := by
  apply encodesInItsRow_of_fields <;>
    simp [opcodeRowsA_fields, opcodeRowsB_fields, opcodeRowsC_fields, encode, Instr.row,
      matches_all, matches_top, matches_lo4, matches_lo8]

theorem EncodesInItsRow.shl (x : Reg) (y : Reg) : EncodesInItsRow.Statement (.shl x y) := by
  apply encodesInItsRow_of_fields <;>
    simp [opcodeRowsA_fields, opcodeRowsB_fields, opcodeRowsC_fields, encode, Instr.row,
      matches_all, matches_top, matches_lo4, matches_lo8]

theorem EncodesInItsRow.sneReg (x : Reg) (y : Reg) : EncodesInItsRow.Statement (.sneReg x y) := by
  apply encodesInItsRow_of_fields <;>
    simp [opcodeRowsA_fields, opcodeRowsB_fields, opcodeRowsC_fields, encode, Instr.row,
      matches_all, matches_top, matches_lo4, matches_lo8]

theorem EncodesInItsRow.ldI (nnn : Addr12) : EncodesInItsRow.Statement (.ldI nnn) := by
  apply encodesInItsRow_of_fields <;>
    simp [opcodeRowsA_fields, opcodeRowsB_fields, opcodeRowsC_fields, encode, Instr.row,
      matches_all, matches_top, matches_lo4, matches_lo8]

theorem EncodesInItsRow.jpV0 (nnn : Addr12) : EncodesInItsRow.Statement (.jpV0 nnn) := by
  apply encodesInItsRow_of_fields <;>
    simp [opcodeRowsA_fields, opcodeRowsB_fields, opcodeRowsC_fields, encode, Instr.row,
      matches_all, matches_top, matches_lo4, matches_lo8]

theorem EncodesInItsRow.rnd (x : Reg) (kk : Byte) : EncodesInItsRow.Statement (.rnd x kk) := by
  apply encodesInItsRow_of_fields <;>
    simp [opcodeRowsA_fields, opcodeRowsB_fields, opcodeRowsC_fields, encode, Instr.row,
      matches_all, matches_top, matches_lo4, matches_lo8]

theorem EncodesInItsRow.drw (x : Reg) (y : Reg) (n : Fin 16) : EncodesInItsRow.Statement (.drw x y n) := by
  apply encodesInItsRow_of_fields <;>
    simp [opcodeRowsA_fields, opcodeRowsB_fields, opcodeRowsC_fields, encode, Instr.row,
      matches_all, matches_top, matches_lo4, matches_lo8]

theorem EncodesInItsRow.skp (x : Reg) : EncodesInItsRow.Statement (.skp x) := by
  apply encodesInItsRow_of_fields <;>
    simp [opcodeRowsA_fields, opcodeRowsB_fields, opcodeRowsC_fields, encode, Instr.row,
      matches_all, matches_top, matches_lo4, matches_lo8]

theorem EncodesInItsRow.sknp (x : Reg) : EncodesInItsRow.Statement (.sknp x) := by
  apply encodesInItsRow_of_fields <;>
    simp [opcodeRowsA_fields, opcodeRowsB_fields, opcodeRowsC_fields, encode, Instr.row,
      matches_all, matches_top, matches_lo4, matches_lo8]

theorem EncodesInItsRow.ldVxDt (x : Reg) : EncodesInItsRow.Statement (.ldVxDt x) := by
  apply encodesInItsRow_of_fields <;>
    simp [opcodeRowsA_fields, opcodeRowsB_fields, opcodeRowsC_fields, encode, Instr.row,
      matches_all, matches_top, matches_lo4, matches_lo8]

theorem EncodesInItsRow.ldVxK (x : Reg) : EncodesInItsRow.Statement (.ldVxK x) := by
  apply encodesInItsRow_of_fields <;>
    simp [opcodeRowsA_fields, opcodeRowsB_fields, opcodeRowsC_fields, encode, Instr.row,
      matches_all, matches_top, matches_lo4, matches_lo8]

theorem EncodesInItsRow.ldDtVx (x : Reg) : EncodesInItsRow.Statement (.ldDtVx x) := by
  apply encodesInItsRow_of_fields <;>
    simp [opcodeRowsA_fields, opcodeRowsB_fields, opcodeRowsC_fields, encode, Instr.row,
      matches_all, matches_top, matches_lo4, matches_lo8]

theorem EncodesInItsRow.ldStVx (x : Reg) : EncodesInItsRow.Statement (.ldStVx x) := by
  apply encodesInItsRow_of_fields <;>
    simp [opcodeRowsA_fields, opcodeRowsB_fields, opcodeRowsC_fields, encode, Instr.row,
      matches_all, matches_top, matches_lo4, matches_lo8]

theorem EncodesInItsRow.addI (x : Reg) : EncodesInItsRow.Statement (.addI x) := by
  apply encodesInItsRow_of_fields <;>
    simp [opcodeRowsA_fields, opcodeRowsB_fields, opcodeRowsC_fields, encode, Instr.row,
      matches_all, matches_top, matches_lo4, matches_lo8]

theorem EncodesInItsRow.ldF (x : Reg) : EncodesInItsRow.Statement (.ldF x) := by
  apply encodesInItsRow_of_fields <;>
    simp [opcodeRowsA_fields, opcodeRowsB_fields, opcodeRowsC_fields, encode, Instr.row,
      matches_all, matches_top, matches_lo4, matches_lo8]

theorem EncodesInItsRow.ldB (x : Reg) : EncodesInItsRow.Statement (.ldB x) := by
  apply encodesInItsRow_of_fields <;>
    simp [opcodeRowsA_fields, opcodeRowsB_fields, opcodeRowsC_fields, encode, Instr.row,
      matches_all, matches_top, matches_lo4, matches_lo8]

theorem EncodesInItsRow.stRegs (x : Reg) : EncodesInItsRow.Statement (.stRegs x) := by
  apply encodesInItsRow_of_fields <;>
    simp [opcodeRowsA_fields, opcodeRowsB_fields, opcodeRowsC_fields, encode, Instr.row,
      matches_all, matches_top, matches_lo4, matches_lo8]

theorem EncodesInItsRow.ldRegs (x : Reg) : EncodesInItsRow.Statement (.ldRegs x) := by
  apply encodesInItsRow_of_fields <;>
    simp [opcodeRowsA_fields, opcodeRowsB_fields, opcodeRowsC_fields, encode, Instr.row,
      matches_all, matches_top, matches_lo4, matches_lo8]

theorem EncodesInItsRow.unrec (w : Word) : EncodesInItsRow.Statement (.unrec w) := by
  intro h r hr
  have hm : r.matchesWord w = false := by
    simpa using List.all_eq_true.mp (show unrecognized w = true from h) r hr
  have hn : ∀ r ∈ opcodeRows, r.num ≠ 36 := by decide
  exact ⟨fun e => absurd e (by simp [encode, hm]), fun e => absurd e (hn r hr)⟩

end Sys2Proof.Laws
end

