-- ==== Sys2Proof/Tests/Slice0.lean ====
section
/-! SUPPORT. The package's own tests. Expected results are those of `95_test_vectors.md` (its ids
stand in the comments) or hand calculation from the encodings of `30_encoding.md`. At the end, one
witness for each hypothesis of the statements, at the boundary of its range. -/

namespace Sys2Proof.Machine

/-! ## Helpers -/

/-- The outcome is a next state that meets the check. -/
def passes (o : Host.Outcome State Fault Refusal) (check : State → Bool) : Bool :=
  match o with
  | .next t => check t
  | .fault _ => false
  | .refused _ => false

theorem passes_next {o : Host.Outcome State Fault Refusal} {check : State → Bool}
    (h : passes o check = true) : ∃ t, o = .next t ∧ check t = true := by
  cases o with
  | next t => exact ⟨t, rfl, h⟩
  | fault _ => cases h
  | refused _ => cases h

/-- The outcome is a next state. -/
def completes (o : Host.Outcome State Fault Refusal) : Bool := passes o fun _ => true

/-- The reset state with an instruction word at PC. -/
def start (w : Nat) : State := State.reset.withFetchWord 16 w

/-- With the cells (column, row) toggled. -/
def State.withCells (s : State) (cells : List (Fin 64 × Fin 32)) : State :=
  s.setFb (cells.foldl (fun fb p => toggleCell fb p.2 p.1) s.fb)

/-! ## Decoding: one word for each row, its bits written out from R65 and R62 -/

theorem test_decode_family_0 :
    decodeWord 0b0000_0000_0000_0000 = .nop ∧
    decodeWord 0b0000_0000_1110_0000 = .cls ∧
    decodeWord 0b0000_0000_1110_1110 = .ret ∧
    decodeWord 0b0000_0000_1110_0001 = .unrec 0x00E1 := by
  decide

theorem test_decode_jumps :
    decodeWord 0b0001_1010_1011_1100 = .jp 0xABC ∧
    decodeWord 0b0010_0011_0100_0101 = .call 0x345 ∧
    decodeWord 0b1011_1111_1110_1101 = .jpV0 0xFED := by
  decide

theorem test_decode_skips :
    decodeWord 0b0011_1010_0100_0010 = .seImm 10 0x42 ∧
    decodeWord 0b0100_1011_0001_0111 = .sneImm 11 0x17 ∧
    decodeWord 0b0101_1100_1101_0000 = .seReg 12 13 ∧
    decodeWord 0b1001_1110_0011_0000 = .sneReg 14 3 ∧
    decodeWord 0b0101_1010_1011_0001 = .unrec 0x5AB1 ∧
    decodeWord 0b1001_1110_1111_0010 = .unrec 0x9EF2 := by
  decide

theorem test_decode_immediates :
    decodeWord 0b0110_1010_0111_1111 = .ldImm 10 0x7F ∧
    decodeWord 0b0111_0011_0000_0001 = .addImm 3 0x01 ∧
    decodeWord 0b1100_0001_1111_0000 = .rnd 1 0xF0 ∧
    decodeWord 0b1010_0001_0010_0011 = .ldI 0x123 := by
  decide

theorem test_decode_family_8_low :
    decodeWord 0b1000_1010_1011_0000 = .ldReg 10 11 ∧
    decodeWord 0b1000_1010_1011_0001 = .orReg 10 11 ∧
    decodeWord 0b1000_1010_1011_0010 = .andReg 10 11 ∧
    decodeWord 0b1000_1010_1011_0011 = .xorReg 10 11 ∧
    decodeWord 0b1000_1010_1011_0100 = .addReg 10 11 := by
  decide

theorem test_decode_family_8_high :
    decodeWord 0b1000_1010_1011_0101 = .subReg 10 11 ∧
    decodeWord 0b1000_1010_1011_0110 = .shr 10 11 ∧
    decodeWord 0b1000_1010_1011_0111 = .subnReg 10 11 ∧
    decodeWord 0b1000_1010_1011_1110 = .shl 10 11 ∧
    decodeWord 0b1000_1010_1011_1000 = .unrec 0x8AB8 := by
  decide

theorem test_decode_draw_and_keys :
    decodeWord 0b1101_0001_0010_1111 = .drw 1 2 15 ∧
    decodeWord 0b1110_0101_1001_1110 = .skp 5 ∧
    decodeWord 0b1110_0110_1010_0001 = .sknp 6 ∧
    decodeWord 0b1110_0101_0000_0000 = .unrec 0xE500 := by
  decide

theorem test_decode_family_f_low :
    decodeWord 0b1111_0111_0000_0111 = .ldVxDt 7 ∧
    decodeWord 0b1111_1000_0000_1010 = .ldVxK 8 ∧
    decodeWord 0b1111_1001_0001_0101 = .ldDtVx 9 ∧
    decodeWord 0b1111_1010_0001_1000 = .ldStVx 10 ∧
    decodeWord 0b1111_1011_0001_1110 = .addI 11 := by
  decide

theorem test_decode_family_f_high :
    decodeWord 0b1111_1100_0010_1001 = .ldF 12 ∧
    decodeWord 0b1111_1101_0011_0011 = .ldB 13 ∧
    decodeWord 0b1111_1110_0101_0101 = .stRegs 14 ∧
    decodeWord 0b1111_1001_0110_0101 = .ldRegs 9 ∧
    decodeWord 0b1111_1111_1111_1111 = .unrec 0xFFFF := by
  decide

/-- R42, R60: the first byte in memory is the high byte; the bytes after the word are kept. -/
theorem test_decode_bytes :
    decode [0x12, 0x34, 0x56] = .ok (.jp 0x234, [0x56]) ∧ decode [0x12] = .error .truncated ∧
    decode [] = .error .truncated := ⟨rfl, rfl, rfl⟩

theorem test_decodeTableWord :
    decodeTableWord 16 0x8AB6 = some (.shr 10 11) ∧ decodeTableWord 8 0xEE = some .ret ∧
    decodeTableWord 24 0x001234 = none := by
  decide

/-- The word is fetched and run whatever the mode and PC were. -/
theorem test_withFetchWord :
    passes (step (((State.reset.setMode .fault).setPc 0x1000).withFetchWord 16 0x6A7F))
      (fun t => t.getV 10 == 0x7F && t.pc == 0x202) = true ∧
    passes (step ((State.reset.setPc 0xFFE).withFetchWord 16 0x6A7F))
      (fun t => t.getV 10 == 0x7F && t.pc == 0x1000) = true := by
  decide

/-! ## Well-formedness -/

/-- No word that matches one of the 35 patterns can stand as an unrecognized one. -/
theorem test_wellFormed_refuses_each_pattern :
    (opcodeRows.all fun r => !WellFormed (.unrec r.pattern)) = true := by
  decide

theorem test_wellFormed_refuses_words_of_rows :
    WellFormed (.unrec 0x8AB6) = false ∧ WellFormed (.unrec 0xD12F) = false ∧
    WellFormed (.unrec 0xF965) = false := by
  decide

theorem test_wellFormed_accepts :
    WellFormed (.unrec 0x5AB1) = true ∧ WellFormed (.unrec 0xFFFF) = true ∧
    WellFormed (.drw 1 2 15) = true := by
  decide

theorem test_opcode_map_has_35_rows : opcodeRows.length = 35 := rfl

theorem test_fontset_has_80_bytes : Config.fontset.length = 80 := rfl

/-! ## One Step of each instruction -/

/-- TF1. -/
theorem test_nop :
    passes (step (((start 0x0000).setV 0x0 0x01).setI 0x0123)) (fun t =>
      t.getV 0x0 == 0x01 && t.i == 0x123 && t.pc == 0x202) = true := by
  decide

/-- S5b, TD22. -/
theorem test_cls :
    passes (step (((start 0x00E0).setV 0xF 0x01).withCells [(0, 0), (63, 31), (17, 5)])) (fun t =>
      !cellAt t.fb 0 0 && !cellAt t.fb 31 63 && !cellAt t.fb 5 17 && t.getV 0xF == 0x01 &&
        t.pc == 0x202) = true := by
  decide

/-- TF10. -/
theorem test_ret :
    passes (step (((start 0x00EE).setSp 16).setStk (State.reset.stk.set 15 0x31E))) (fun t =>
      t.sp == 15 && t.pc == 0x320) = true := by
  decide

/-- TF11. -/
theorem test_ret_empty_stack :
    passes (step (start 0x00EE)) (fun t =>
      t.mode == .fault && t.fcause == .stackUnderflow && t.finfo == 0x0 &&
        t.pc == 0x200) = true := by
  decide

/-- TF3. -/
theorem test_jp_odd :
    passes (step (start 0x1201)) (fun t =>
      t.pc == 0x201) = true := by
  decide

/-- TF7, at pc = 200. -/
theorem test_call_last_entry :
    passes (step ((start 0x2300).setSp 15)) (fun t =>
      t.sp == 16 && t.stk[15] == 0x200 && t.pc == 0x300) = true := by
  decide

/-- TF8, at pc = 200. -/
theorem test_call_full_stack :
    passes (step ((start 0x2300).setSp 16)) (fun t =>
      t.mode == .fault && t.fcause == .stackOverflow && t.finfo == 0x10 && t.pc == 0x200 &&
        t.sp == 16) = true := by
  decide

/-- TS1. -/
theorem test_se_imm_equal :
    passes (step ((start 0x3142).setV 0x1 0x42)) (fun t =>
      t.pc == 0x204) = true := by
  decide

/-- TS2. -/
theorem test_se_imm_different :
    passes (step ((start 0x3142).setV 0x1 0x43)) (fun t =>
      t.pc == 0x202) = true := by
  decide

/-- TS4. -/
theorem test_sne_imm_equal :
    passes (step ((start 0x4142).setV 0x1 0x42)) (fun t =>
      t.pc == 0x202) = true := by
  decide

/-- TS5. -/
theorem test_sne_imm_different :
    passes (step ((start 0x4142).setV 0x1 0x43)) (fun t =>
      t.pc == 0x204) = true := by
  decide

/-- TS6. -/
theorem test_se_reg_equal :
    passes (step (((start 0x5120).setV 0x1 0x80).setV 0x2 0x80)) (fun t =>
      t.pc == 0x204) = true := by
  decide

/-- TS7. -/
theorem test_se_reg_different :
    passes (step (((start 0x5120).setV 0x1 0x80).setV 0x2 0x7F)) (fun t =>
      t.pc == 0x202) = true := by
  decide

/-- S1a. -/
theorem test_ld_imm :
    passes (step (start 0x6A7F)) (fun t =>
      t.getV 0xA == 0x7F && t.pc == 0x202) = true := by
  decide

/-- S2. -/
theorem test_add_imm_wraps :
    passes (step (((start 0x7301).setV 0x3 0xFF).setV 0xF 0x01)) (fun t =>
      t.getV 0x3 == 0x00 && t.getV 0xF == 0x01 && t.pc == 0x202) = true := by
  decide

/-- TA5. -/
theorem test_ld_reg :
    passes (step (((start 0x8120).setV 0x1 0x11).setV 0x2 0x22)) (fun t =>
      t.getV 0x1 == 0x22 && t.getV 0x2 == 0x22 && t.pc == 0x202) = true := by
  decide

/-- TA7. -/
theorem test_or :
    passes (step ((((start 0x8121).setV 0x1 0xF0).setV 0x2 0x0C).setV 0xF 0x01)) (fun t =>
      t.getV 0x1 == 0xFC && t.getV 0xF == 0x01 && t.pc == 0x202) = true := by
  decide

/-- TA8. -/
theorem test_and :
    passes (step ((((start 0x8122).setV 0x1 0xF0).setV 0x2 0x3C).setV 0xF 0x01)) (fun t =>
      t.getV 0x1 == 0x30 && t.getV 0xF == 0x01 && t.pc == 0x202) = true := by
  decide

/-- TA9. -/
theorem test_xor :
    passes (step ((((start 0x8123).setV 0x1 0xF0).setV 0x2 0x3C).setV 0xF 0x01)) (fun t =>
      t.getV 0x1 == 0xCC && t.getV 0xF == 0x01 && t.pc == 0x202) = true := by
  decide

/-- TA14. -/
theorem test_add_no_carry_at_255 :
    passes (step ((((start 0x8124).setV 0x1 0xFE).setV 0x2 0x01).setV 0xF 0x01)) (fun t =>
      t.getV 0x1 == 0xFF && t.getV 0xF == 0x00 && t.pc == 0x202) = true := by
  decide

/-- TA17. -/
theorem test_add_carry_from_vf :
    passes (step (((start 0x81F4).setV 0x1 0x01).setV 0xF 0xFF)) (fun t =>
      t.getV 0x1 == 0x00 && t.getV 0xF == 0x01) = true := by
  decide

/-- TA18. -/
theorem test_sub_equal :
    passes (step ((((start 0x8125).setV 0x1 0x05).setV 0x2 0x05).setV 0xF 0x01)) (fun t =>
      t.getV 0x1 == 0x00 && t.getV 0xF == 0x00) = true := by
  decide

/-- TA22. -/
theorem test_sub_into_vf :
    passes (step (((start 0x8F25).setV 0xF 0x05).setV 0x2 0x03)) (fun t =>
      t.getV 0xF == 0x02) = true := by
  decide

/-- TA26. -/
theorem test_shr_ignores_vy :
    passes (step (((start 0x8126).setV 0x1 0xFF).setV 0x2 0x12)) (fun t =>
      t.getV 0x1 == 0x7F && t.getV 0x2 == 0x12 && t.getV 0xF == 0x01) = true := by
  decide

/-- TA28. -/
theorem test_shr_into_vf :
    passes (step ((start 0x8F06).setV 0xF 0x07)) (fun t =>
      t.getV 0xF == 0x03) = true := by
  decide

/-- TA30. -/
theorem test_subn_less :
    passes (step ((((start 0x8127).setV 0x1 0x02).setV 0x2 0x01).setV 0xF 0x01)) (fun t =>
      t.getV 0x1 == 0xFF && t.getV 0xF == 0x00) = true := by
  decide

/-- TA32. -/
theorem test_subn_into_vf :
    passes (step (((start 0x8F27).setV 0xF 0x03).setV 0x2 0x05)) (fun t =>
      t.getV 0xF == 0x02) = true := by
  decide

/-- TA35. -/
theorem test_shl_ignores_vy :
    passes (step (((start 0x812E).setV 0x1 0xFF).setV 0x2 0x12)) (fun t =>
      t.getV 0x1 == 0xFE && t.getV 0x2 == 0x12 && t.getV 0xF == 0x01) = true := by
  decide

/-- TA34. -/
theorem test_shl_top_bit_clear :
    passes (step (((start 0x810E).setV 0x1 0x40).setV 0xF 0x01)) (fun t =>
      t.getV 0x1 == 0x80 && t.getV 0xF == 0x00) = true := by
  decide

/-- TS10. -/
theorem test_sne_reg_equal :
    passes (step (((start 0x9120).setV 0x1 0x80).setV 0x2 0x80)) (fun t =>
      t.pc == 0x202) = true := by
  decide

/-- TS9. -/
theorem test_sne_reg_different :
    passes (step (((start 0x9120).setV 0x1 0x80).setV 0x2 0x7F)) (fun t =>
      t.pc == 0x204) = true := by
  decide

/-- TM2. -/
theorem test_ld_i :
    passes (step ((start 0xAFFF).setI 0x1234)) (fun t =>
      t.i == 0xFFF && t.pc == 0x202) = true := by
  decide

/-- TF15. -/
theorem test_jp_v0_above_12_bits :
    passes (step ((start 0xBFFF).setV 0x0 0xFF)) (fun t =>
      t.pc == 0x10FE) = true := by
  decide

/-- TD5. -/
theorem test_drw_right_edge :
    passes (step (((((start 0xD011).setV 0x0 0x3F).setV 0x1 0x1F).setI 0x0300)
      |>.storeBytes 0x300 [0xFF]))
      (fun t =>
      cellAt t.fb 31 63 && cellAt t.fb 31 0 && cellAt t.fb 31 6 && !cellAt t.fb 31 7 &&
        !cellAt t.fb 31 62 && t.getV 0xF == 0x00 && t.pc == 0x202) = true := by
  decide

/-- TD12. -/
theorem test_drw_partial_collision :
    passes (step ((((start 0xD011).setI 0x0300).storeBytes 0x300 [0xC0]).withCells [(1, 0)]))
      (fun t =>
      cellAt t.fb 0 0 && !cellAt t.fb 0 1 && t.getV 0xF == 0x01) = true := by
  decide

/-- TK3. -/
theorem test_skp_other_key :
    passes (step (((start 0xE19E).setV 0x1 0x0A).setKeys (State.reset.key.set 0xB true))) (fun t =>
      t.pc == 0x202) = true := by
  decide

/-- TK6. -/
theorem test_skp_no_such_key :
    passes (step ((start 0xE19E).setV 0x1 0x10)) (fun t =>
      t.mode == .fault && t.fcause == .keyIndex && t.finfo == 0x10 && t.pc == 0x200) = true := by
  decide

/-- TK4. -/
theorem test_sknp_key_up :
    passes (step ((start 0xE1A1).setV 0x1 0x0F)) (fun t =>
      t.pc == 0x204) = true := by
  decide

/-- TK7. -/
theorem test_sknp_no_such_key :
    passes (step ((start 0xE1A1).setV 0x1 0xFF)) (fun t =>
      t.mode == .fault && t.fcause == .keyIndex && t.finfo == 0xFF && t.pc == 0x200) = true := by
  decide

/-- TK8. -/
theorem test_ld_vx_dt :
    passes (step (((start 0xF107).setDt 0x2A).setV 0x1 0x01)) (fun t =>
      t.getV 0x1 == 0x2A && t.dt == 0x2A && t.pc == 0x202) = true := by
  decide

/-- TK13. -/
theorem test_ld_vx_k_key_already_down :
    passes (step (((start 0xF10A).setV 0x1 0x33).setKeys (State.reset.key.set 4 true))) (fun t =>
      t.mode == .waitKey && t.waitx == 1 && t.getV 0x1 == 0x33 && t.pc == 0x200) = true := by
  decide

/-- TK9. -/
theorem test_ld_dt_vx :
    passes (step ((start 0xF115).setV 0x1 0xFF)) (fun t =>
      t.dt == 0xFF && t.st == 0 && t.pc == 0x202) = true := by
  decide

/-- TK11. -/
theorem test_ld_st_vx :
    passes (step ((start 0xF118).setV 0x1 0x02)) (fun t =>
      t.st == 2 && t.dt == 0 && t.soundActive && t.pc == 0x202) = true := by
  decide

/-- TM5. -/
theorem test_add_i_wraps :
    passes (step (((start 0xF21E).setI 0xFFFF).setV 0x2 0x02)) (fun t =>
      t.i == 0x1 && t.getV 0xF == 0x00 && t.pc == 0x202) = true := by
  decide

/-- TM8. -/
theorem test_ld_f_whole_byte :
    passes (step ((start 0xF129).setV 0x1 0xFF)) (fun t =>
      t.i == 0x4FB && t.pc == 0x202) = true := by
  decide

/-- TM13. -/
theorem test_ld_b :
    passes (step (((start 0xF033).setV 0x0 0x7B).setI 0x0FFD)) (fun t =>
      t.readByte 0xFFD == 0x01 && t.readByte 0xFFE == 0x02 && t.readByte 0xFFF == 0x03 &&
        t.i == 0xFFD && t.pc == 0x202) = true := by
  decide

/-- TM14. -/
theorem test_ld_b_out_of_range :
    passes (step (((start 0xF033).setV 0x0 0x7B).setI 0x0FFE)) (fun t =>
      t.mode == .fault && t.fcause == .dataOob && t.finfo == 0xFFE && t.pc == 0x200 &&
        t.readByte 0xFFE == 0x00) = true := by
  decide

/-- TM15. -/
theorem test_store_regs :
    passes (step ((((((start 0xF255).setV 0x0 0x11).setV 0x1 0x22).setV 0x2 0x33).setV 0x3 0x44)
      |>.setI 0x0300))
      (fun t =>
      t.readByte 0x300 == 0x11 && t.readByte 0x301 == 0x22 && t.readByte 0x302 == 0x33 &&
        t.readByte 0x303 == 0x00 && t.i == 0x303) = true := by
  decide

/-- TM19. -/
theorem test_store_regs_out_of_range :
    passes (step ((((start 0xF155).setV 0x0 0xAA).setV 0x1 0xBB).setI 0x0FFF)) (fun t =>
      t.mode == .fault && t.fcause == .dataOob && t.finfo == 0xFFF && t.pc == 0x200 &&
        t.readByte 0xFFF == 0x00 && t.i == 0xFFF) = true := by
  decide

/-- TM21. -/
theorem test_load_regs :
    passes (step ((((start 0xF265).setI 0x0300).setV 0x3 0x99)
      |>.storeBytes 0x300 [0x11, 0x22, 0x33, 0x44]))
      (fun t =>
      t.getV 0x0 == 0x11 && t.getV 0x1 == 0x22 && t.getV 0x2 == 0x33 && t.getV 0x3 == 0x99 &&
        t.i == 0x303) = true := by
  decide

/-- TM24. -/
theorem test_load_regs_out_of_range :
    passes (step ((((start 0xF165).setI 0x0FFF).setV 0x0 0x55).setV 0x1 0x66)) (fun t =>
      t.mode == .fault && t.fcause == .dataOob && t.finfo == 0xFFF && t.pc == 0x200 &&
        t.getV 0x0 == 0x55 && t.getV 0x1 == 0x66) = true := by
  decide

/-- TE9. -/
theorem test_unrec_no_key_fault :
    passes (step ((start 0xE100).setV 0x1 0x20)) (fun t =>
      t.mode == .run && t.pc == 0x202) = true := by
  decide

/-- TE11. -/
theorem test_unrec_f075 :
    passes (step (start 0xF075)) (fun t =>
      t.pc == 0x202 && t.fcause == .none) = true := by
  decide

/-- TA37 to TA40 with the draw left free: the result is `kk & rand`, and one draw is consumed. -/
theorem test_rnd_masks :
    ∃ t, step ((start 0xC10F).setV 1 0x55) = .next t ∧
      t.getV 1 = 0x0F &&& Config.randomByte 0 ∧ t.draws = 1 ∧ t.pc = 0x202 :=
  ⟨_, rfl, rfl, rfl, rfl⟩

/-- TA38: with kk = 00 the result is 00 for every draw. -/
theorem test_rnd_zero_mask :
    ∃ t, step ((start 0xC100).setV 1 0x55) = .next t ∧ t.getV 1 = 0 :=
  ⟨_, rfl, BitVec.zero_and⟩

/-! ## Fetch faults, held modes, events -/

/-- TX2. -/
theorem test_fetch_out_of_range :
    passes (step (State.reset.setPc 0xFFF)) (fun t =>
      t.mode == .fault && t.fcause == .fetchOob && t.finfo == 0xFFF && t.pc == 0xFFF) = true := by
  decide

/-- TX1. -/
theorem test_last_word_of_memory :
    passes (step (State.reset.setPc 0xFFE)) (fun t => t.mode == .run && t.pc == 0x1000) = true := by
  decide

/-- TX5, TX6. -/
theorem test_held_modes :
    step ((start 0x6101).setMode .fault) = .next ((start 0x6101).setMode .fault) ∧
    step ((start 0x6101).setMode .waitKey) = .next ((start 0x6101).setMode .waitKey) :=
  ⟨rfl, rfl⟩

/-- TT3, as the next event of the schedule. -/
theorem test_tick :
    passes (step (((State.reset.setDt 0xFF).setSt 5).setSched [.tick]))
      (fun t => t.dt == 0xFE && t.st == 4 && t.pc == 0x200 && t.sched == []) = true := by
  decide

/-- TV4. -/
theorem test_key_press_ends_wait :
    passes (((State.reset.setMode .waitKey).setWaitx 2).setPc 0x204 |>.apply (.key 15 true))
      (fun t => t.key[15] && t.getV 2 == 0x0F && t.pc == 0x206 && t.mode == .run &&
        t.waitx == 2) = true := by
  decide

/-- TV5. -/
theorem test_key_release_keeps_wait :
    passes (((State.reset.setMode .waitKey).setWaitx 2).setPc 0x204 |>.apply (.key 3 false))
      (fun t => !t.key[3] && t.pc == 0x204 && t.mode == .waitKey) = true := by
  decide

/-- TV10. -/
theorem test_reset_event :
    (((State.reset.raiseFault .stackOverflow 0x10).setSp 16).writeByte 0x300 0x55).apply .reset =
      .next State.reset := rfl

/-- TV11; the image is on the schedule before the first Step. -/
theorem test_load :
    passes (step (State.reset.setSched [.load [0x12, 0x00]]))
      (fun t => t.readByte 0x200 == 0x12 && t.readByte 0x201 == 0 && t.pc == 0x200) = true := by
  decide

/-! ## Witnesses: what the hypotheses of the statements say is met -/

theorem witness_DecodeOfEncodeIsTheInstruction :
    WellFormed (.unrec 0x5AB1) = true ∧ WellFormed (.jp 0xFFF) = true := by
  decide

theorem witness_DecoderFollowsTheOpcodeMap :
    (⟨2, 0xFFFF, 0x00E0⟩ : OpcodeRow) ∈ opcodeRows ∧ (0x00E0 : Word) &&& 0xFFFF = 0x00E0 ∧
    (∀ r ∈ opcodeRows, (0xFFFF : Word) &&& r.mask ≠ r.pattern) := by
  decide

theorem witness_InstructionBytesAreBigEndian :
    (0xFFFE : Word).toNat = (0xFF : Byte).toNat * 256 + (0xFE : Byte).toNat ∧
    ([] : List Byte).length < 2 ∧ ([0xFF] : List Byte).length < 2 := by
  decide

theorem witness_StepRunsTheDecodedInstruction :
    ((State.reset.setPc 0xFFE).withFetchWord 16 0x6A7F).sched = [] ∧
    ((State.reset.setPc 0xFFE).withFetchWord 16 0x6A7F).mode = .run ∧
    ((State.reset.setPc 0xFFE).withFetchWord 16 0x6A7F).pc.toNat ≤ 0xFFE ∧
    decode [((State.reset.setPc 0xFFE).withFetchWord 16 0x6A7F).readByte 0xFFE,
      ((State.reset.setPc 0xFFE).withFetchWord 16 0x6A7F).readByte 0xFFF] =
        .ok (.ldImm 10 0x7F, []) :=
  ⟨rfl, rfl, by decide, rfl⟩

theorem witness_StepEventFetchesDecodesExecutes :
    (State.reset.setMode .waitKey).mode ≠ .run ∧ (State.reset.setMode .fault).mode ≠ .run ∧
    State.reset.mode = .run ∧ 0xFFE < (State.reset.setPc 0xFFF).pc.toNat ∧
    (State.reset.setPc 0xFFE).pc.toNat ≤ 0xFFE := by
  decide

theorem witness_ScheduledEventsHappenInOrder :
    State.reset.sched = [] ∧
    (State.reset.setSched [.tick, .step]).sched = .tick :: [.step] := by
  decide

theorem witness_StepOfARunningCoreIsAlwaysEnabled :
    (State.reset.setSp 16).mode = .run ∧ (State.reset.setSp 16).sp.toNat ≤ 16 := by
  decide

theorem witness_FaultsAreRaisedExactlyAsTheTableSays_raised :
    specFault (.drw 0 1 15) (State.reset.setI 0xFF2) = some (.dataOob, 0xFF2) ∧
    specFault (.drw 0 1 1) (State.reset.setI 0x1000) = some (.dataOob, 0x1000) ∧
    specFault (.ldB 0) (State.reset.setI 0xFFE) = some (.dataOob, 0xFFE) ∧
    specFault (.stRegs 15) (State.reset.setI 0xFF1) = some (.dataOob, 0xFF1) ∧
    specFault (.ldRegs 0) (State.reset.setI 0x1000) = some (.dataOob, 0x1000) ∧
    specFault (.call 0) (State.reset.setSp 16) = some (.stackOverflow, 16) ∧
    specFault .ret State.reset = some (.stackUnderflow, 0) ∧
    specFault (.skp 3) (State.reset.setV 3 0x10) = some (.keyIndex, 0x10) ∧
    specFault (.sknp 3) (State.reset.setV 3 0xFF) = some (.keyIndex, 0xFF) := by
  decide

theorem witness_FaultsAreRaisedExactlyAsTheTableSays_not_raised :
    ([(.drw 0 1 15, State.reset.setI 0xFF1), (.drw 0 1 0, State.reset.setI 0xFFFF),
      (.ldB 0, State.reset.setI 0xFFD), (.stRegs 15, State.reset.setI 0xFF0),
      (.ldRegs 0, State.reset.setI 0xFFF), (.call 0, State.reset.setSp 15),
      (.ret, State.reset.setSp 16), (.skp 3, State.reset.setV 3 0x0F), (.ldVxK 0, State.reset)] :
      List (Instr × State)).all
      (fun p => (specFault p.1 p.2).isNone && completes (exec p.1 p.2)) = true := by
  decide

theorem witness_FaultsAreRaisedExactlyAsTheTableSays_fetch :
    (State.reset.setPc 0xFFF).mode = .run ∧ 0xFFE < (State.reset.setPc 0xFFF).pc.toNat := by
  decide

theorem witness_OnlyResetLeavesFaultMode :
    (State.reset.raiseFault .dataOob 0xFFF).mode = .fault := by
  decide

theorem witness_NoOpsOnlyAdvance :
    ∀ r ∈ opcodeRows, (0x00E1 : Word) &&& r.mask ≠ r.pattern := by
  decide

theorem witness_CallPushesItsOwnAddress :
    (State.reset.setSp 15).sp.toNat < 16 ∧ 16 ≤ (State.reset.setSp 16).sp.toNat := by
  decide

theorem witness_RetContinuesAfterTheCall :
    (State.reset.setSp 16).sp.toNat = (15 : Fin 16).val + 1 ∧
    (State.reset.setSp 1).sp.toNat = (0 : Fin 16).val + 1 ∧ State.reset.sp = 0 := by
  decide

theorem witness_RetBeyondTheStackStops :
    16 < (State.reset.setSp 17).sp.toNat := by
  decide

/-- The later state has an entry that a nested call left above SP. -/
theorem witness_CallThenReturnComesBack :
    (State.reset.setSp 14).sp.toNat < 16 ∧
    ∃ t u : State, exec (.call 0x300) (State.reset.setSp 14) = .next t ∧ u.sp = t.sp ∧
      u.stk[14]? = t.stk[14]? ∧ u.stk ≠ t.stk :=
  ⟨by decide, _, (State.reset.setStk ((State.reset.stk.set 14 0x200).set 15 0x300)).setSp 15, rfl,
    rfl, rfl, by decide⟩

theorem witness_CallThenReturnComesBack_last_entry :
    (State.reset.setSp 15).sp.toNat < 16 ∧
    ∃ t u : State, exec (.call 0x300) (State.reset.setSp 15) = .next t ∧ u.sp = t.sp ∧
      u.stk[15]? = t.stk[15]? :=
  ⟨by decide, _, _, rfl, rfl, rfl⟩

theorem witness_SkipsComparingAnImmediate :
    State.reset.getV 15 = 0 ∧ State.reset.getV 15 ≠ 0xFF := by
  decide

theorem witness_SkipsComparingTwoRegisters :
    State.reset.getV 0 = State.reset.getV 15 ∧
    (State.reset.setV 0 0xFF).getV 0 ≠ (State.reset.setV 0 0xFF).getV 15 := by
  decide

theorem witness_AddRegistersWritesSumAndCarry :
    (14 : Reg) ≠ 15 ∧
    255 < ((State.reset.setV 14 0xFF).setV 2 1 |>.getV 14).toNat +
      ((State.reset.setV 14 0xFF).setV 2 1 |>.getV 2).toNat ∧
    ((State.reset.setV 14 0xFE).setV 2 1 |>.getV 14).toNat +
      ((State.reset.setV 14 0xFE).setV 2 1 |>.getV 2).toNat ≤ 255 := by
  decide

theorem witness_SubtractionsWriteDifferenceAndGreater :
    (14 : Reg) ≠ 15 ∧
    ((State.reset.setV 14 1).getV 2).toNat < ((State.reset.setV 14 1).getV 14).toNat ∧
    (State.reset.getV 14).toNat ≤ (State.reset.getV 2).toNat := by
  decide

theorem witness_ShiftsMoveVxByOneBit :
    (0 : Reg) ≠ 15 ∧ (14 : Reg) ≠ 15 := by
  decide

theorem witness_RandomLoadMasksTheDraw :
    (0x0F : Byte).getLsbD 7 = false ∧ (0x0F : Byte).getLsbD 4 = false := by
  decide

theorem witness_OnlyRandomLoadUsesTheDraws :
    (∀ x kk, Instr.ldImm 1 0x55 ≠ .rnd x kk) ∧ ∃ t, exec (.ldImm 1 0x55) State.reset = .next t :=
  ⟨fun _ _ h => (nomatch h), _, rfl⟩

theorem witness_VfChangesOnlyAsFlagOrDestination :
    passes (exec (.addReg 1 2) ((State.reset.setV 1 0xFF).setV 2 1))
      (fun t => t.getV 15 != 0) = true ∧
    writesFlag (.addReg 1 2) = true ∧ namesVfAsDestination (.addReg 1 2) = false ∧
    specFault (.addReg 1 2) State.reset = none ∧
    passes (exec (.ldImm 15 0x55) State.reset) (fun t => t.getV 15 != 0) = true := by
  decide

theorem witness_BcdStoresThreeDigits :
    (State.reset.setI 0xFFD).i.toNat + 2 ≤ 0xFFF ∧ Memory.wf (State.reset.setI 0xFFD).mem = true ∧
    0xFFF < (State.reset.setI 0xFFE).i.toNat + 2 := by
  decide

theorem witness_StoreRegistersStoresV0ToVx :
    (State.reset.setI 0xFF0).i.toNat + (15 : Reg).val ≤ 0xFFF ∧
    Memory.wf (State.reset.setI 0xFF0).mem = true ∧ (15 : Reg) ≤ 15 ∧
    0xFFF < (State.reset.setI 0xFF1).i.toNat + (15 : Reg).val := by
  decide

theorem witness_LoadRegistersLoadsV0ToVx :
    (State.reset.setI 0xFFF).i.toNat + (0 : Reg).val ≤ 0xFFF ∧ (0 : Reg) ≤ 0 ∧
    0xFFF < (State.reset.setI 0x1000).i.toNat + (0 : Reg).val := by
  decide

theorem witness_StoreThenLoadRestoresRegisters :
    Memory.wf ((State.reset.setI 0xFFE).setV 1 7).mem = true ∧
    ((State.reset.setI 0xFFE).setV 1 7).i.toNat + (1 : Reg).val ≤ 0xFFF ∧
    ∃ t u : State, exec (.stRegs 1) ((State.reset.setI 0xFFE).setV 1 7) = .next t ∧
      (∀ a ∈ ((State.reset.setI 0xFFE).setV 1 7).dataAddrs 2, u.readByte a = t.readByte a) ∧
      u.i = ((State.reset.setI 0xFFE).setV 1 7).i ∧ u.getV 1 ≠ 7 :=
  ⟨by decide, by decide, _,
    (((State.reset.setI 0xFFE).storeBytes 0xFFE [0, 7])), rfl, by decide, rfl, by decide⟩

theorem witness_StoredBytesAreFetchedNext_store_regs :
    Memory.wf (State.reset.setI 0xFF0).mem = true ∧
    (State.reset.setI 0xFF0).i.toNat + (15 : Reg).val ≤ 0xFFF ∧
    ∃ t u : State, exec (.stRegs 15) (State.reset.setI 0xFF0) = .next t ∧ u.mem = t.mem ∧
      u.mode = .run ∧ u.pc.toNat ≤ 0xFFE :=
  ⟨by decide, by decide, _, State.reset.setPc 0xFFE, rfl, rfl, rfl, by decide⟩

theorem witness_StoredBytesAreFetchedNext_ld_b :
    Memory.wf ((State.reset.setI 0xFFD).setV 1 0x7B).mem = true ∧
    ((State.reset.setI 0xFFD).setV 1 0x7B).i.toNat + 2 ≤ 0xFFF ∧
    ∃ t u : State, exec (.ldB 1) ((State.reset.setI 0xFFD).setV 1 0x7B) = .next t ∧
      u.mem = t.mem ∧ u.mode = .run ∧ u.pc.toNat ≤ 0xFFE :=
  ⟨by decide, by decide, _,
    ((State.reset.setI 0xFFD).storeBytes 0xFFD [1, 2, 3]).setPc 0xFFE, rfl, rfl, rfl, by decide⟩

/-- The word fetched half inside the stored bytes, inside them, and outside them. -/
theorem witness_StoredBytesAreFetchedNext_bytes :
    let s := ((State.reset.setI 0x300).setV 0 0x63).setV 1 0x7B
    s.afterStore (storedRegs s 1) 0x300 = 0x63 ∧ s.afterStore (storedRegs s 1) 0x301 = 0x7B ∧
    s.afterStore (storedRegs s 1) 0x302 = 0 ∧ s.afterStore (storedRegs s 1) 0 = 0xF0 ∧
    s.afterStore (storedDigits s 1) 0x301 = 2 ∧ s.afterStore (storedDigits s 1) 0x302 = 3 := by
  decide

/-- The two memories are equal, so they read alike at every address. -/
theorem witness_MemoriesThatReadAlikeAreEqual :
    Memory.wf (writeCell (writeCell [] 0xFFF 1) 0 7) = true ∧
    Memory.wf (writeCell (writeCell [] 0 7) 0xFFF 1) = true ∧
    writeCell (writeCell [] 0xFFF 1) 0 7 = writeCell (writeCell [] 0 7) 0xFFF 1 := by
  decide

theorem witness_DrawTogglesTheSpriteAndReportsCollision_range :
    (0 : Fin 16).val = 0 ∧ (State.reset.setI 0xFF1).i.toNat + (15 : Fin 16).val - 1 ≤ 0xFFF ∧
    1 ≤ (15 : Fin 16).val ∧ 0xFFF < (State.reset.setI 0xFF2).i.toNat + (15 : Fin 16).val - 1 := by
  decide

/-- TD5 and TD12: a start in the corner, whose second pixel lies at column 0. -/
def corner : State := (((State.reset.setI 0xFFF).writeByte 0xFFF 0xFF).setV 0 63).setV 1 31

/-- The pixel falls once on a blank cell and once on a set one; a height of 0 covers nothing. -/
theorem witness_DrawTogglesTheSpriteAndReportsCollision_covers :
    spriteCovers corner 0 1 1 31 0 ∧ cellAt corner.fb 31 0 = false ∧
    spriteCovers (corner.withCells [(0, 31)]) 0 1 1 31 0 ∧
    cellAt (corner.withCells [(0, 31)]).fb 31 0 = true ∧ ¬ spriteCovers corner 0 1 0 31 0 :=
  ⟨⟨0, 1, by decide, by decide, by decide, by decide, by decide⟩, by decide,
    ⟨0, 1, by decide, by decide, by decide, by decide, by decide⟩, by decide,
    fun ⟨_, _, h, _⟩ => absurd h (Nat.not_lt_zero _)⟩

theorem witness_DrawingTwiceRestoresTheFramebuffer :
    (0 : Reg) ≠ 15 ∧ (1 : Reg) ≠ 15 ∧
    State.reset.i.toNat + (15 : Fin 16).val - 1 ≤ 0xFFF ∧
    ∃ t u : State, exec (.drw 0 1 15) State.reset = .next t ∧ exec (.drw 0 1 15) t = .next u :=
  ⟨by decide, by decide, by decide, _, _, rfl, rfl⟩

theorem witness_SpritePixelsFallOnDistinctCells :
    (List.replicate 15 (0xFF : Byte)).length ≤ 15 := by
  decide

theorem witness_KeySkipsTestTheKeyLevel :
    ((State.reset.setV 1 0x0F).getV 1).toNat = (15 : Key).val ∧
    State.reset.key[(15 : Key)] = false ∧
    (State.reset.setKeys (State.reset.key.set 15 true)).key[(15 : Key)] = true ∧
    0xF < ((State.reset.setV 1 0x10).getV 1).toNat := by
  decide

theorem witness_TickDecrementsBothTimers :
    (State.reset.setDt 1).dt ≠ 0 ∧ State.reset.dt = 0 ∧ (State.reset.setSt 0xFF).st ≠ 0 ∧
    State.reset.st = 0 := by
  decide

theorem witness_KeyEventsSetTheKeyAndEndTheWait :
    (State.reset.setMode .waitKey).mode = .waitKey ∧
    ¬(true = true ∧ State.reset.mode = .waitKey) ∧
    ¬(false = true ∧ (State.reset.setMode .waitKey).mode = .waitKey) := by
  decide

theorem witness_ModeChangesOnlyAsListed :
    (State.reset.setMode .fault).mode ≠ .run ∧ (State.reset.setMode .waitKey).mode = .waitKey ∧
    passes ((start 0xF10A).apply .step) (fun t => t.mode == .waitKey) = true ∧
    passes ((State.reset.setMode .waitKey).apply (.key 0 true)) (fun t => t.mode == .run) = true ∧
    passes ((start 0x00EE).apply .step) (fun t => t.mode == .fault) = true ∧
    (start 0xF10A).pc.toNat ≤ 0xFFE ∧ decodeWord (start 0xF10A).fetchWord = .ldVxK 1 := by
  decide

theorem witness_OnlyTheNamedAgentsWrite :
    completes (State.reset.apply (.load [0x12])) = true ∧
    completes (State.reset.apply (.key 3 true)) = true ∧
    completes (State.reset.apply .fbRead) = true ∧
    passes ((State.reset.setDt 1).apply .tick) (fun t => t.dt != 1) = true ∧
    passes (((start 0xF118).setV 1 2).apply .step) (fun t => t.st != 0) = true ∧
    passes ((start 0xF30A).apply .step) (fun t => t.waitx != 0) = true ∧
    passes ((start 0x00EE).apply .step) (fun t => t.fcause != .none) = true := by
  decide

theorem witness_TicksCommuteWithOtherInstructions :
    touchesTimer (.drw 0 1 15) = false ∧ completes (exec (.drw 0 1 15) State.reset) = true := by
  decide

theorem witness_NoInstructionReadsTheSoundTimer :
    (∀ x, Instr.ldVxDt 3 ≠ .ldStVx x) ∧ ∃ t, exec (.ldVxDt 3) State.reset = .next t :=
  ⟨fun _ h => (nomatch h), _, rfl⟩

theorem witness_PcBehaviourOfEveryRow :
    specFault (.call 0) (State.reset.setSp 16) ≠ none ∧
    completes (exec (.call 0) (State.reset.setSp 16)) = true ∧
    specFault .ret (State.reset.setSp 16) = none ∧
    completes (exec .ret (State.reset.setSp 16)) = true ∧
    (Instr.ldDtVx 0).row = 29 ∧ (Instr.ldVxK 0).row = 28 ∧ Instr.ret.row = 3 := by
  decide

/-- TV12, TV13: the largest image, and one byte more. -/
theorem witness_LoadCopiesTheImage :
    State.reset.stage = .fresh ∧ (List.replicate 3584 (0xFF : Byte)).length ≤ 3584 ∧
    3584 < (List.replicate 3585 (0xFF : Byte)).length :=
  ⟨rfl, by rw [List.length_replicate], by rw [List.length_replicate]; decide⟩

theorem witness_LoadIsRefusedOutOfOrder :
    (State.reset.setStage .loaded).stage ≠ .fresh ∧ (State.reset.setStage .running).stage ≠ .fresh ∧
    State.reset.mode = .run ∧ completes (State.reset.apply .step) = true ∧
    passes ((State.reset.setStage .running).apply .reset) (fun t => t.stage == .fresh) = true := by
  decide

/-- TF4, TF16, and a NOP, which is no end. -/
theorem witness_QuiescentExactlyAtSelfJumps :
    (start 0x1200).mode = .run ∧ (start 0x1200).quiescent ∧
    ((start 0xB1F0).setV 0 0x10).quiescent ∧ (start 0x0000).mode = .run ∧
    passes (start 0x0000).coreStep (fun t => t.pc != (start 0x0000).pc) = true :=
  ⟨rfl, rfl, rfl, rfl, by decide⟩

theorem witness_EveryStepKeepsTheInvariant :
    Inv State.reset ∧ ∃ t, step State.reset = .next t :=
  ⟨⟨rfl, by decide, by decide, by decide, fun h => (nomatch h), fun _ => ⟨rfl, rfl⟩,
    fun h => (nomatch h), fun _ => rfl⟩, _, rfl⟩

/-- The invariant is met in the two held modes too. -/
theorem witness_Inv_held_modes :
    Inv ((((start 0xF10A).setStage .running).setMode .waitKey).setWaitx 1) ∧
    Inv (((State.reset.setStage .running).setPc 0xFFF).raiseFault .fetchOob 0xFFF) :=
  ⟨⟨by decide, by decide, by decide, by decide, fun _ => by decide, fun _ => ⟨rfl, rfl⟩,
    fun h => (nomatch h), fun h => absurd rfl h⟩,
   ⟨rfl, by decide, by decide, by decide, fun h => (nomatch h), fun h => absurd rfl h,
    fun _ => ⟨rfl, by decide⟩, fun h => absurd rfl h⟩⟩

end Sys2Proof.Machine
end

/-! PROOFS, family `10_state.md`. First what an instruction can do, said once: it raises the fault of
R161, or it changes only what it writes (`exec_cases`). Then the invariant, MODE and the agents, VF,
the timers, and reset. -/

/-! ## Frames of the operations that instructions are made of -/

namespace Sys2Proof.Machine

theorem Part.same.trans {p : Part} {s t u : State} (h : p.same s t) (h' : p.same t u) :
    p.same s u := by
  cases p <;> exact Eq.trans h' h

/-- A change of parts alone: no register and no byte of memory. -/
theorem Frame.of_parts {parts : List Part} {s t : State} (hv : t.v = s.v) (hm : t.mem = s.mem)
    (hp : ∀ p, p ∉ parts → p.same s t) : Frame [] parts [] s t where
  regs_same r _ := by simp [State.getV, hv]
  parts_same := hp
  mem_same a _ := by simp [State.readByte, hm]

theorem setI_frame (s : State) (w : Word) : Frame [] [.i] [] s (s.setI w) :=
  .of_parts rfl rfl fun p hp => by cases p <;> simp_all [Part.same]

theorem Frame.setPc {r : List Reg} {p : List Part} {m : List Nat} {s t : State}
    (h : Frame r p m s t) (w : Word) : Frame r p m s (t.setPc w) := by
  simpa using h.trans (setPc_frame t w)

theorem Frame.setI {r : List Reg} {p : List Part} {m : List Nat} {s t : State}
    (h : Frame r p m s t) (w : Word) : Frame r (.i :: p) m s (t.setI w) :=
  (h.trans (setI_frame t w)).weaken (by simp) (by simp) (by simp)

theorem setSp_frame (s : State) (b : Byte) : Frame [] [.sp] [] s (s.setSp b) :=
  .of_parts rfl rfl fun p hp => by cases p <;> simp_all [Part.same]

theorem setStk_frame (s : State) (k : Vector Word 16) : Frame [] [.stk] [] s (s.setStk k) :=
  .of_parts rfl rfl fun p hp => by cases p <;> simp_all [Part.same]

theorem setDt_frame (s : State) (b : Byte) : Frame [] [.dt] [] s (s.setDt b) :=
  .of_parts rfl rfl fun p hp => by cases p <;> simp_all [Part.same]

theorem setSt_frame (s : State) (b : Byte) : Frame [] [.st] [] s (s.setSt b) :=
  .of_parts rfl rfl fun p hp => by cases p <;> simp_all [Part.same]

theorem setFb_frame (s : State) (f : Framebuffer) : Frame [] [.fb] [] s (s.setFb f) :=
  .of_parts rfl rfl fun p hp => by cases p <;> simp_all [Part.same]

theorem countDraw_frame (s : State) : Frame [] [.draws] [] s s.countDraw :=
  .of_parts rfl rfl fun p hp => by cases p <;> simp_all [Part.same]

theorem setStage_frame (s : State) (b : BootStage) : Frame [] [.stage] [] s (s.setStage b) :=
  .of_parts rfl rfl fun p hp => by cases p <;> simp_all [Part.same]

/-- Entering the key wait changes WAITX and MODE alone (R152). -/
theorem enterWait_frame (s : State) (x : Reg) :
    Frame [] [.waitx, .mode] [] s ((s.setWaitx x).setMode .waitKey) :=
  .of_parts rfl rfl fun p hp => by cases p <;> simp_all [Part.same]

/-- A draw changes the framebuffer and VF alone (R141). -/
theorem drawOnto_frame (s : State) (cells : List (Fin 32 × Fin 64)) :
    Frame [vf] [.fb] [] s (s.drawOnto cells) :=
  (setFb_frame s _).trans (setV_frame _ vf _)

/-- A change of memory alone, outside the span of a data access from I (R46). -/
theorem Frame.of_stored {s : State} {m : Memory} {len : Nat}
    (h : ∀ a, a < s.i.toNat ∨ s.i.toNat + len ≤ a → (s.setMem m).readByte a = s.readByte a) :
    Frame [] [] (s.dataAddrs len) s (s.setMem m) where
  regs_same _ _ := rfl
  parts_same p _ := by cases p <;> rfl
  mem_same a ha := h a (by rw [State.mem_dataAddrs] at ha; omega)

theorem storeBytes_frame (s : State) (bs : List Byte) :
    Frame [] [] (s.dataAddrs bs.length) s (s.storeBytes (s.dataAddr 0) bs) := by
  rw [State.storeBytes_eq]
  refine .of_stored fun a ha => ?_
  rw [← State.storeBytes_eq]
  exact State.readByte_storeBytes_outside s _ a bs ha

theorem storeRegs_frame (s : State) (n : Nat) :
    Frame [] [] (s.dataAddrs n) s (s.storeRegs (s.dataAddr 0) n) := by
  rw [State.storeRegs_eq]
  refine .of_stored fun a ha => ?_
  rw [← State.storeRegs_eq]
  exact State.readByte_storeRegs_outside s _ n a ha

theorem mem_regsUpTo (x r : Reg) : r ∈ regsUpTo x ↔ r ≤ x := by simp [regsUpTo]

/-- Loading V0..Vx changes these registers alone (R135). -/
theorem loadRegs_frame (s : State) (a : Nat) (x : Reg) :
    Frame (regsUpTo x) [] [] s (s.loadRegs a (regCount x)) where
  regs_same r hr := by
    have hx : ¬ r.val < regCount x := fun h => hr ((mem_regsUpTo x r).2 (Nat.lt_succ_iff.1 h))
    rw [State.getV_loadRegs, if_neg hx]
  parts_same p _ := by
    rw [State.loadRegs_eq]
    cases p <;> rfl
  mem_same _ _ := by
    rw [State.loadRegs_eq]
    rfl

/-! ## Which instruction faults, in the model's own tests (R161) -/

/-- The fault of a data access of `len` bytes from I, by the model's own range test (R45). -/
def State.dataFault (s : State) (len : Nat) : Option (FaultCause × Word) :=
  if s.dataOob len then some (.dataOob, s.i) else none

theorem specFault_drw (x y : Reg) (n : Fin 16) (s : State) :
    specFault (.drw x y n) s = s.dataFault n.val :=
  if_congr (by rw [State.dataOob_iff]; omega) rfl rfl

theorem specFault_ldB (x : Reg) (s : State) : specFault (.ldB x) s = s.dataFault 3 :=
  if_congr (by rw [State.dataOob_iff]; omega) rfl rfl

theorem specFault_stRegs (x : Reg) (s : State) :
    specFault (.stRegs x) s = s.dataFault (regCount x) :=
  if_congr (by rw [State.dataOob_iff, regCount]; omega) rfl rfl

theorem specFault_ldRegs (x : Reg) (s : State) :
    specFault (.ldRegs x) s = s.dataFault (regCount x) :=
  specFault_stRegs x s

theorem withData_of_fault {s : State} {len : Nat} {act : State → State} {c : FaultCause} {w : Word}
    (h : s.dataFault len = some (c, w)) : s.withData len act = s.raiseFault c w := by
  unfold State.dataFault at h
  split at h
  · next hoob =>
    cases h
    exact State.withData_oob s len act hoob
  · cases h

theorem withData_of_no_fault {s : State} {len : Nat} {act : State → State}
    (h : s.dataFault len = none) : s.withData len act = act s := by
  unfold State.dataFault at h
  split at h
  · cases h
  · next hoob => exact State.withData_ok s len act (Bool.not_eq_true _ ▸ hoob)

/-- A key skip and the fault that the table of R161 gives it: the two agree. -/
theorem skipOnKey_of_fault {s : State} {x : Reg} {level : Bool} {c : FaultCause} {w : Word}
    (h : specFault (.skp x) s = some (c, w)) : s.skipOnKey x level = s.raiseFault c w := by
  simp only [specFault] at h
  rcases s.skipOnKey_cases x level with ⟨hlt, -⟩ | ⟨hge, heq⟩
  · rw [if_neg (by omega)] at h
    cases h
  · rw [if_pos (by omega)] at h
    cases h
    exact heq

/-- A key skip that does not fault is a skip. -/
theorem skipOnKey_of_no_fault {s t : State} {x : Reg} {level : Bool}
    (h : specFault (.skp x) s = none)
    (ht : (.next (s.skipOnKey x level) : Host.Outcome State Fault Refusal) = .next t) :
    ∃ cond, t = s.skipIf cond := by
  cases ht
  simp only [specFault] at h
  rcases s.skipOnKey_cases x level with ⟨hlt, heq⟩ | ⟨hge, -⟩
  · exact ⟨_, heq⟩
  · rw [if_pos (by omega)] at h
    cases h

/-! ## What the instructions that can fault do when they do not -/

theorem exec_drw_of_no_fault {x y : Reg} {n : Fin 16} {s : State}
    (h : specFault (.drw x y n) s = none) :
    exec (.drw x y n) s = .next (s.drawOnto (s.spriteOf x y n.val)).advance :=
  congrArg _ (withData_of_no_fault (specFault_drw x y n s ▸ h))

theorem exec_ldB_of_no_fault {x : Reg} {s : State} (h : specFault (.ldB x) s = none) :
    exec (.ldB x) s = .next (s.storeBytes (s.dataAddr 0) (bcdDigits (s.getV x))).advance :=
  congrArg _ (withData_of_no_fault (specFault_ldB x s ▸ h))

theorem exec_stRegs_of_no_fault {x : Reg} {s : State} (h : specFault (.stRegs x) s = none) :
    exec (.stRegs x) s = .next ((s.storeRegs (s.dataAddr 0) (regCount x)).bumpI
      (BitVec.ofNat 16 (regCount x))).advance :=
  congrArg _ (withData_of_no_fault (specFault_stRegs x s ▸ h))

theorem exec_ldRegs_of_no_fault {x : Reg} {s : State} (h : specFault (.ldRegs x) s = none) :
    exec (.ldRegs x) s = .next ((s.loadRegs (s.dataAddr 0) (regCount x)).bumpI
      (BitVec.ofNat 16 (regCount x))).advance :=
  congrArg _ (withData_of_no_fault (specFault_ldRegs x s ▸ h))

theorem exec_call_of_no_fault {nnn : Addr12} {s : State} (h : specFault (.call nnn) s = none) :
    ∃ hsp : s.sp.toNat < 16, exec (.call nnn) s =
      .next (((s.setStk (s.stk.set s.sp.toNat s.pc hsp)).setSp (s.sp + 1)).setPc (zextAddr nnn)) := by
  rcases s.pushStack_cases s.pc with ⟨hsp, heq⟩ | ⟨hge, -⟩
  · exact ⟨hsp, by simp only [exec, execCall, heq]⟩
  · simp [specFault, hge] at h

theorem exec_ret_of_entry {s : State} (hsp : s.sp ≠ 0) (hj : (s.sp - 1).toNat < 16) :
    exec .ret s = .next ((s.setSp (s.sp - 1)).setPc (s.stk[(s.sp - 1).toNat] + 2)) := by
  simp only [exec, execRet, if_neg hsp, State.stackEntry_eq_some s _ hj]

/-- All that a RET without a fault can do when it gives a next state (R81). -/
theorem exec_ret_of_no_fault {s t : State} (h : specFault .ret s = none)
    (ht : exec .ret s = .next t) :
    s.sp ≠ 0 ∧ ∃ hj : (s.sp - 1).toNat < 16,
      t = (s.setSp (s.sp - 1)).setPc (s.stk[(s.sp - 1).toNat] + 2) := by
  have hsp : s.sp ≠ 0 := fun h0 => by simp [specFault, h0] at h
  rcases Nat.lt_or_ge (s.sp - 1).toNat 16 with hj | hj
  · cases (exec_ret_of_entry hsp hj).symm.trans ht
    exact ⟨hsp, hj, rfl⟩
  · simp only [exec, execRet, if_neg hsp, State.stackEntry_eq_none s _ hj, reduceCtorEq] at ht

/-! ## What an instruction may change -/

/-- The general registers an instruction writes, the flag included (R10, R12). -/
def regsWritten : Instr → List Reg
  | .ldImm x _ | .addImm x _ | .ldReg x _ | .orReg x _ | .andReg x _ | .xorReg x _ => [x]
  | .addReg x _ | .subReg x _ | .shr x _ | .subnReg x _ | .shl x _ => [vf, x]
  | .rnd x _ | .ldVxDt x => [x]
  | .drw _ _ _ => [vf]
  | .ldRegs x => regsUpTo x
  | _ => []

/-- The parts of the state, V, PC and MEM apart, that an instruction writes when it does not fault. -/
def partsWritten : Instr → List Part
  | .cls | .drw _ _ _ => [.fb]
  | .ret => [.sp]
  | .call _ => [.stk, .sp]
  | .ldI _ | .addI _ | .ldF _ | .stRegs _ | .ldRegs _ => [.i]
  | .rnd _ _ => [.draws]
  | .ldVxK _ => [.waitx, .mode]
  | .ldDtVx _ => [.dt]
  | .ldStVx _ => [.st]
  | _ => []

/-- The addresses of the bytes an instruction stores. -/
def bytesStored (s : State) : Instr → List Nat
  | .ldB _ => s.dataAddrs 3
  | .stRegs x => s.dataAddrs (regCount x)
  | _ => []

/-- A fault of the table of R161 is raised as the table says. -/
theorem exec_of_fault {i : Instr} {s : State} {c : FaultCause} {w : Word}
    (h : specFault i s = some (c, w)) : exec i s = .next (s.raiseFault c w) := by
  cases i with
  | drw x y n => exact congrArg _ (withData_of_fault (specFault_drw x y n s ▸ h))
  | ldB x => exact congrArg _ (withData_of_fault (specFault_ldB x s ▸ h))
  | stRegs x => exact congrArg _ (withData_of_fault (specFault_stRegs x s ▸ h))
  | ldRegs x => exact congrArg _ (withData_of_fault (specFault_ldRegs x s ▸ h))
  | skp x | sknp x => exact congrArg _ (skipOnKey_of_fault h)
  | call nnn =>
    rcases s.pushStack_cases s.pc with ⟨hsp, -⟩ | ⟨hge, heq⟩
    · simp [specFault, Nat.not_le.2 hsp] at h
    · simp only [specFault, if_pos hge] at h
      cases h
      simp only [exec, execCall, heq]
  | ret =>
    simp only [specFault] at h
    split at h
    · next h0 =>
      cases h
      simp only [exec, execRet, h0, if_true]
      rfl
    · cases h
  | _ => cases h

/-- An instruction that does not fault changes only what it writes, and PC. -/
theorem exec_frame {i : Instr} {s t : State} (hf : specFault i s = none)
    (h : exec i s = .next t) :
    Frame (regsWritten i) (partsWritten i) (bytesStored s i) s t := by
  cases i with
  | nop | jp nnn | jpV0 nnn | unrec w =>
    cases h
    exact setPc_frame s _
  | seImm x kk | sneImm x kk | seReg x y | sneReg x y =>
    cases h
    exact skipIf_frame s _
  | ldImm x kk | addImm x kk | ldReg x y | orReg x y | andReg x y | xorReg x y | ldVxDt x =>
    cases h
    exact (setV_frame s x _).setPc _
  | addReg x y | subReg x y | shr x y | subnReg x y | shl x y =>
    cases h
    exact writeFlagged_frame s x _ _
  | rnd x kk =>
    cases h
    exact ((setV_frame s x _).trans (countDraw_frame _)).setPc _
  | cls =>
    cases h
    exact (setFb_frame s _).setPc _
  | ldI nnn | addI x | ldF x =>
    cases h
    exact (setI_frame s _).setPc _
  | ldDtVx x =>
    cases h
    exact (setDt_frame s _).setPc _
  | ldStVx x =>
    cases h
    exact (setSt_frame s _).setPc _
  | ldVxK x =>
    cases h
    exact enterWait_frame s x
  | skp x | sknp x =>
    obtain ⟨cond, rfl⟩ := skipOnKey_of_no_fault hf h
    exact skipIf_frame s cond
  | call nnn =>
    obtain ⟨hsp, heq⟩ := exec_call_of_no_fault hf
    cases heq.symm.trans h
    exact ((setStk_frame s _).trans (setSp_frame _ _)).setPc _
  | ret =>
    obtain ⟨-, hj, rfl⟩ := exec_ret_of_no_fault hf h
    exact (setSp_frame s _).setPc _
  | drw x y n =>
    cases (exec_drw_of_no_fault hf).symm.trans h
    exact (drawOnto_frame s _).setPc _
  | ldB x =>
    cases (exec_ldB_of_no_fault hf).symm.trans h
    exact (storeBytes_frame s (bcdDigits _)).setPc _
  | stRegs x =>
    cases (exec_stRegs_of_no_fault hf).symm.trans h
    exact ((storeRegs_frame s _).setI _).setPc _
  | ldRegs x =>
    cases (exec_ldRegs_of_no_fault hf).symm.trans h
    exact ((loadRegs_frame s _ x).setI _).setPc _

/-- All that an instruction with a next state can do: raise its fault, or change what it writes. -/
theorem exec_cases {i : Instr} {s t : State} (h : exec i s = .next t) :
    (∃ c w, specFault i s = some (c, w) ∧ t = s.raiseFault c w) ∨
    (specFault i s = none ∧ Frame (regsWritten i) (partsWritten i) (bytesStored s i) s t) := by
  cases hf : specFault i s with
  | none => exact .inr ⟨rfl, exec_frame hf h⟩
  | some f =>
    cases (exec_of_fault hf).symm.trans h
    exact .inl ⟨f.1, f.2, rfl, rfl⟩

end Sys2Proof.Machine

/-! ## Which instructions write a part of the state (R31) -/

namespace Sys2Proof.Machine

theorem mem_partsWritten_mode (i : Instr) : .mode ∈ partsWritten i ↔ ∃ x, i = .ldVxK x := by
  cases i <;> simp [partsWritten]

theorem mem_partsWritten_waitx (i : Instr) : .waitx ∈ partsWritten i ↔ ∃ x, i = .ldVxK x := by
  cases i <;> simp [partsWritten]

theorem mem_partsWritten_dt (i : Instr) : .dt ∈ partsWritten i ↔ ∃ x, i = .ldDtVx x := by
  cases i <;> simp [partsWritten]

theorem mem_partsWritten_st (i : Instr) : .st ∈ partsWritten i ↔ ∃ x, i = .ldStVx x := by
  cases i <;> simp [partsWritten]

theorem mem_partsWritten_sp (i : Instr) :
    .sp ∈ partsWritten i ↔ i = .ret ∨ ∃ nnn, i = .call nnn := by
  cases i <;> simp [partsWritten]

theorem mem_partsWritten_stk (i : Instr) : .stk ∈ partsWritten i ↔ ∃ nnn, i = .call nnn := by
  cases i <;> simp [partsWritten]

/-- The parts that no instruction writes: they change by other agents or by a fault alone. -/
theorem not_mem_partsWritten (i : Instr) :
    .key ∉ partsWritten i ∧ .fcause ∉ partsWritten i ∧ .finfo ∉ partsWritten i ∧
    .stage ∉ partsWritten i ∧ .sched ∉ partsWritten i := by
  cases i <;> simp [partsWritten]

/-- A part that an instruction does not write changes by a fault alone. -/
theorem exec_part_same {i : Instr} {s t : State} (h : exec i s = .next t) (p : Part)
    (hp : p ∉ partsWritten i) (hfault : p ∉ [.mode, .fcause, .finfo]) : p.same s t := by
  rcases exec_cases h with ⟨c, w, -, rfl⟩ | ⟨-, hframe⟩
  · exact (raiseFault_frame s c w).parts_same p hfault
  · exact hframe.parts_same p hp

/-- All that an instruction can do to MODE: fault, enter the key wait, or keep it (R22). -/
theorem exec_mode_cases {i : Instr} {s t : State} (h : exec i s = .next t) :
    (∃ c w, specFault i s = some (c, w) ∧ t = s.raiseFault c w) ∨
    (∃ x, i = .ldVxK x ∧ t = (s.setWaitx x).setMode .waitKey) ∨
    (specFault i s = none ∧ t.mode = s.mode ∧ t.waitx = s.waitx ∧ t.fcause = s.fcause ∧
      t.finfo = s.finfo) := by
  rcases exec_cases h with hfault | ⟨hf, hframe⟩
  · exact .inl hfault
  · by_cases hk : ∃ x, i = .ldVxK x
    · obtain ⟨x, rfl⟩ := hk
      cases h
      exact .inr (.inl ⟨x, rfl, rfl⟩)
    · obtain ⟨-, hfcause, hfinfo, -, -⟩ := not_mem_partsWritten i
      exact .inr (.inr ⟨hf,
        hframe.parts_same .mode (mt (mem_partsWritten_mode i).1 hk),
        hframe.parts_same .waitx (mt (mem_partsWritten_waitx i).1 hk),
        hframe.parts_same .fcause hfcause, hframe.parts_same .finfo hfinfo⟩)

/-- A Step of a running core whose PC can be fetched from is the instruction at PC (R64). -/
theorem State.coreStep_inRange {s : State} (hm : s.mode = .run) (hpc : s.pc.toNat ≤ 0xFFE) :
    s.coreStep = exec (decodeWord s.fetchWord) (s.setStage .running) := by
  have hin : (s.setStage .running).fetchInRange = true := (State.fetchInRange_iff s).2 hpc
  rw [State.coreStep_run s hm, State.runStep, if_pos hin, State.setStage_fetchWord]

/-- A Step of a running core whose PC cannot be fetched from is a fault (R64). -/
theorem State.coreStep_outOfRange {s : State} (hm : s.mode = .run) (hpc : 0xFFE < s.pc.toNat) :
    s.coreStep = .next ((s.setStage .running).raiseFault .fetchOob s.pc) := by
  have hout : ¬ (s.setStage .running).fetchInRange = true :=
    fun hin => absurd ((State.fetchInRange_iff s).1 hin) (by omega)
  rw [State.coreStep_run s hm, State.runStep, if_neg hout, State.setStage_pc]

/-- All that a Step can do: nothing in a held core, FETCH_OOB, or the instruction at PC (R64). -/
theorem State.coreStep_cases {s t : State} (h : s.coreStep = .next t) :
    (s.mode ≠ .run ∧ t = s) ∨
    (s.mode = .run ∧ 0xFFE < s.pc.toNat ∧ t = (s.setStage .running).raiseFault .fetchOob s.pc) ∨
    (s.mode = .run ∧ s.pc.toNat ≤ 0xFFE ∧
      exec (decodeWord s.fetchWord) (s.setStage .running) = .next t) := by
  by_cases hm : s.mode = .run
  · rcases Nat.lt_or_ge 0xFFE s.pc.toNat with hpc | hpc
    · cases (State.coreStep_outOfRange hm hpc).symm.trans h
      exact .inr (.inl ⟨hm, hpc, rfl⟩)
    · exact .inr (.inr ⟨hm, hpc, (State.coreStep_inRange hm hpc).symm.trans h⟩)
  · cases (State.coreStep_held s hm).symm.trans h
    exact .inl ⟨hm, rfl⟩

end Sys2Proof.Machine

/-! ## The invariant under the parts of an event -/

namespace Sys2Proof.Machine

/-- The invariant speaks of no general register, timer, cell, key, draw or scheduled event. -/
theorem Inv.of_unconstrained {s : State} (h : Inv s) {v : Vector Byte 16} {dt st : Byte}
    {fb : Framebuffer} {key : Vector Bool 16} {draws : Nat} {sched : List Event} :
    Inv { s with v := v, dt := dt, st := st, fb := fb, key := key, draws := draws, sched := sched } :=
  ⟨h.mem_wf, h.sp_le, h.stk_le, h.pc_le, h.wait_word, h.latch_empty, h.latch_full, h.boot_run⟩

theorem Inv.setSched {s : State} (h : Inv s) (es : List Event) : Inv (s.setSched es) :=
  h.of_unconstrained

theorem Inv.tick {s : State} (h : Inv s) : Inv s.tick := h.of_unconstrained

theorem Inv.setKeys {s : State} (h : Inv s) (keys : Vector Bool 16) : Inv (s.setKeys keys) :=
  h.of_unconstrained

theorem inv_reset : Inv State.reset where
  mem_wf := reset_mem_wf
  sp_le := by decide
  stk_le := by decide
  pc_le := by decide
  wait_word h := nomatch h
  latch_empty _ := ⟨rfl, rfl⟩
  latch_full h := nomatch h
  boot_run _ := rfl

theorem inv_resetEvent (s : State) : Inv s.resetEvent := inv_reset.of_unconstrained

/-- A fault whose latch agrees with the state keeps the invariant, once the boot order has ended. -/
theorem Inv.raiseFault {s : State} (h : Inv s) {c : FaultCause} {w : Word}
    (hstage : s.stage = .running) (hlatch : (s.raiseFault c w).latchAgrees) :
    Inv (s.raiseFault c w) where
  mem_wf := h.mem_wf
  sp_le := h.sp_le
  stk_le := h.stk_le
  pc_le := h.pc_le
  wait_word hw := nomatch hw
  latch_empty hm := absurd rfl hm
  latch_full _ := hlatch
  boot_run hb := absurd hstage hb

/-- The end of the boot order at a Step of a running core. -/
theorem Inv.setStage_running {s : State} (h : Inv s) : Inv (s.setStage .running) where
  mem_wf := h.mem_wf
  sp_le := h.sp_le
  stk_le := h.stk_le
  pc_le := h.pc_le
  wait_word := h.wait_word
  latch_empty := h.latch_empty
  latch_full := h.latch_full
  boot_run hb := absurd rfl hb

/-- Entering the wait at the instruction that PC addresses (R152). -/
theorem Inv.enterWait {s : State} (h : Inv s) {x : Reg} (hm : s.mode = .run)
    (hstage : s.stage = .running) (hpc : s.pc.toNat ≤ 0xFFE)
    (hword : decodeWord s.fetchWord = .ldVxK x) : Inv ((s.setWaitx x).setMode .waitKey) where
  mem_wf := h.mem_wf
  sp_le := h.sp_le
  stk_le := h.stk_le
  pc_le := h.pc_le
  wait_word _ := ⟨hpc, hword⟩
  latch_empty _ := h.latch_empty (by simp [hm])
  latch_full hf := nomatch hf
  boot_run hb := absurd hstage hb

/-- A sum modulo 65536 is at most the sum. -/
theorem toNat_add_le (w : Word) (k m n : Nat) (hw : w.toNat ≤ m) (hk : m + k ≤ n) :
    (w + BitVec.ofNat 16 k).toNat ≤ n := by
  rw [BitVec.toNat_add, BitVec.toNat_ofNat]
  have h1 := Nat.mod_le (w.toNat + k % 2 ^ 16) (2 ^ 16)
  have h2 := Nat.mod_le k (2 ^ 16)
  omega

/-- The end of the wait (R172): PC was at a fetched instruction. -/
theorem Inv.completeWait {s : State} (h : Inv s) (hm : s.mode = .waitKey) (k : Key) :
    Inv (s.completeWait k) where
  mem_wf := h.mem_wf
  sp_le := h.sp_le
  stk_le := h.stk_le
  pc_le := toNat_add_le s.pc 2 0xFFE _ (h.wait_word hm).1 (by decide)
  wait_word hw := nomatch hw
  latch_empty _ := h.latch_empty (by simp [hm])
  latch_full hf := nomatch hf
  boot_run _ := rfl

theorem Inv.keyEvent {s : State} (h : Inv s) (k : Key) (pressed : Bool) :
    Inv (s.keyEvent k pressed) := by
  rcases s.keyEvent_cases k pressed with ⟨-, hm, heq⟩ | ⟨-, heq⟩
  · rw [heq]
    have hk := h.setKeys (s.key.set k pressed)
    exact hk.completeWait hm k
  · rw [heq]
    exact h.setKeys _

/-- A Load is before the first Step, when the core neither waits nor is faulted (R193, R194). -/
theorem Inv.load {s t : State} {image : List Byte} (h : Inv s) (ht : s.load image = .next t) :
    Inv t := by
  rcases s.load_cases image with ⟨hfresh, hlen, heq⟩ | ⟨-, -, heq⟩ | ⟨-, heq⟩
  · cases heq.symm.trans ht
    have hm : s.mode = .run := h.boot_run (by simp [hfresh])
    have hwf : Memory.wf (s.storeBytes Config.progBase image).mem = true := by
      refine s.storeBytes_wf _ image ?_ h.mem_wf
      simp only [Config.progBase, Config.progMax, Config.memSize] at hlen ⊢
      omega
    rw [State.storeBytes_eq]
    exact ⟨hwf, h.sp_le, h.stk_le, h.pc_le, fun hw => by simp [hm] at hw, h.latch_empty,
      fun hf => by simp [hm] at hf, fun _ => hm⟩
  · cases heq.symm.trans ht
  · cases heq.symm.trans ht

/-! ## The invariant under an instruction -/

theorem zextByte_toNat (b : Byte) : (zextByte b).toNat = b.toNat := by
  have := b.isLt
  simp only [zextByte, BitVec.toNat_setWidth]
  omega

theorem zextAddr_toNat (a : Addr12) : (zextAddr a).toNat = a.toNat := by
  have := a.isLt
  simp only [zextAddr, BitVec.toNat_setWidth]
  omega

/-- The latch that a fault of the table of R161 fills agrees with the state. -/
theorem latchAgrees_of_specFault {i : Instr} {s : State} {c : FaultCause} {w : Word}
    (h : specFault i s = some (c, w)) : (s.raiseFault c w).latchAgrees := by
  cases i with
  | drw _ _ x | ldB x | stRegs x | ldRegs x =>
    simp only [specFault, Option.ite_none_right_eq_some, Option.some.injEq, Prod.mk.injEq] at h
    obtain ⟨hoob, rfl, rfl⟩ := h
    exact ⟨rfl, show 0xFF0 < s.i.toNat by omega⟩
  | call _ | ret =>
    simp only [specFault, Option.ite_none_right_eq_some, Option.some.injEq, Prod.mk.injEq] at h
    obtain ⟨hsp, rfl, rfl⟩ := h
    exact ⟨rfl, hsp⟩
  | skp x | sknp x =>
    simp only [specFault, Option.ite_none_right_eq_some, Option.some.injEq, Prod.mk.injEq] at h
    obtain ⟨hkey, rfl, rfl⟩ := h
    have := (s.getV x).isLt
    simp only [State.latchAgrees, State.raiseFault_fcause, State.raiseFault_finfo, zextByte_toNat]
    omega
  | _ => cases h

/-- A store is range-checked first, so memory keeps its canonical form (R45; log 5). -/
theorem exec_mem_wf {i : Instr} {s t : State} (hf : specFault i s = none)
    (h : exec i s = .next t) (hwf : Memory.wf s.mem = true) : Memory.wf t.mem = true := by
  cases i with
  | ldB x =>
    cases (exec_ldB_of_no_fault hf).symm.trans h
    simp only [specFault, ite_eq_right_iff, reduceCtorEq, imp_false] at hf
    exact s.storeBytes_wf _ _ (by simp [bcdDigits, State.dataAddr, Config.memSize]; omega) hwf
  | stRegs x =>
    cases (exec_stRegs_of_no_fault hf).symm.trans h
    simp only [specFault, ite_eq_right_iff, reduceCtorEq, imp_false] at hf
    exact s.storeRegs_wf _ _ (by simp [regCount, State.dataAddr, Config.memSize]; omega) hwf
  | ldRegs x =>
    cases (exec_ldRegs_of_no_fault hf).symm.trans h
    rw [State.loadRegs_eq]
    exact hwf
  | drw x y n =>
    cases (exec_drw_of_no_fault hf).symm.trans h
    exact hwf
  | skp x | sknp x =>
    obtain ⟨cond, rfl⟩ := skipOnKey_of_no_fault hf h
    exact hwf
  | call nnn =>
    obtain ⟨hsp, heq⟩ := exec_call_of_no_fault hf
    cases heq.symm.trans h
    exact hwf
  | ret =>
    obtain ⟨-, hj, rfl⟩ := exec_ret_of_no_fault hf h
    exact hwf
  | _ =>
    cases h
    exact hwf

/-- SP moves by a call or a return alone, which check it first (R15). -/
theorem exec_sp_le {i : Instr} {s t : State} (hf : specFault i s = none)
    (h : exec i s = .next t) (hle : s.sp.toNat ≤ 16) : t.sp.toNat ≤ 16 := by
  by_cases hw : .sp ∈ partsWritten i
  · rcases (mem_partsWritten_sp i).1 hw with rfl | ⟨nnn, rfl⟩
    · obtain ⟨-, hj, rfl⟩ := exec_ret_of_no_fault hf h
      exact Nat.le_of_lt hj
    · obtain ⟨hsp, heq⟩ := exec_call_of_no_fault hf
      cases heq.symm.trans h
      simp only [State.setPc_sp, State.setSp_sp]
      bv_omega
  · have hsame : t.sp = s.sp := (exec_frame hf h).parts_same .sp hw
    rwa [hsame]

/-- A stack entry is written by a call alone, with the address of the call (R16). -/
theorem exec_stk_le {i : Instr} {s t : State} (hf : specFault i s = none)
    (h : exec i s = .next t) (hpc : s.pc.toNat ≤ 0xFFE)
    (hle : ∀ j : Fin 16, s.stk[j].toNat ≤ 0xFFE) (j : Fin 16) : t.stk[j].toNat ≤ 0xFFE := by
  by_cases hw : .stk ∈ partsWritten i
  · obtain ⟨nnn, rfl⟩ := (mem_partsWritten_stk i).1 hw
    obtain ⟨hsp, heq⟩ := exec_call_of_no_fault hf
    cases heq.symm.trans h
    have hj := hle j
    simp only [State.setPc_stk, State.setSp_stk, State.setStk_stk, Fin.getElem_fin,
      Vector.getElem_set] at hj ⊢
    split <;> assumption
  · have hsame : t.stk = s.stk := (exec_frame hf h).parts_same .stk hw
    rw [hsame]
    exact hle j

/-- The values PC can take after an instruction of `s` (R70). -/
inductive PcMove (s : State) : Word → Prop
  /-- PC stays at the waiting instruction. -/
  | stay : PcMove s s.pc
  /-- On to the next instruction. -/
  | advance : PcMove s (s.pc + 2)
  /-- Past the next instruction, or on to it. -/
  | skip (cond : Bool) : PcMove s (s.pc + if cond then 4 else 2)
  /-- A jump or a call. -/
  | jump (nnn : Addr12) : PcMove s (zextAddr nnn)
  /-- A jump with V0 added. -/
  | jumpV0 (nnn : Addr12) : PcMove s (zextAddr nnn + zextByte (s.getV 0))
  /-- On from a call on the stack. -/
  | ret (j : Fin 16) : PcMove s (s.stk[j] + 2)

/-- All that an instruction without a fault can do to PC. -/
theorem exec_pcMove {i : Instr} {s t : State} (hf : specFault i s = none)
    (h : exec i s = .next t) : PcMove s t.pc := by
  cases i with
  | ldVxK x =>
    cases h
    exact .stay
  | jp nnn =>
    cases h
    exact .jump nnn
  | call nnn =>
    obtain ⟨hsp, heq⟩ := exec_call_of_no_fault hf
    cases heq.symm.trans h
    exact .jump nnn
  | jpV0 nnn =>
    cases h
    exact .jumpV0 nnn
  | ret =>
    obtain ⟨-, hj, rfl⟩ := exec_ret_of_no_fault hf h
    exact .ret ⟨_, hj⟩
  | seImm x kk | sneImm x kk | seReg x y | sneReg x y =>
    cases h
    exact .skip _
  | skp x | sknp x =>
    obtain ⟨cond, rfl⟩ := skipOnKey_of_no_fault hf h
    exact .skip cond
  | drw x y n =>
    cases (exec_drw_of_no_fault hf).symm.trans h
    exact .advance
  | ldB x =>
    cases (exec_ldB_of_no_fault hf).symm.trans h
    exact .advance
  | stRegs x =>
    cases (exec_stRegs_of_no_fault hf).symm.trans h
    rw [State.storeRegs_eq]
    exact .advance
  | ldRegs x =>
    cases (exec_ldRegs_of_no_fault hf).symm.trans h
    rw [State.loadRegs_eq]
    exact .advance
  | _ =>
    cases h
    exact .advance

/-- The largest PC any instruction can produce is that of `JP V0, FFF` with V0 = FF (R14). -/
theorem PcMove.le {s : State} {w : Word} (h : PcMove s w) (hpc : s.pc.toNat ≤ 0xFFE)
    (hstk : ∀ j : Fin 16, s.stk[j].toNat ≤ 0xFFE) : w.toNat ≤ 0x10FE := by
  cases h with
  | stay => omega
  | advance => exact toNat_add_le s.pc 2 0xFFE _ hpc (by decide)
  | skip cond =>
    cases cond with
    | false => exact toNat_add_le s.pc 2 0xFFE _ hpc (by decide)
    | true => exact toNat_add_le s.pc 4 0xFFE _ hpc (by decide)
  | jump nnn =>
    have := nnn.isLt
    rw [zextAddr_toNat]
    omega
  | jumpV0 nnn =>
    have := nnn.isLt
    have := (s.getV 0).isLt
    rw [BitVec.toNat_add, zextAddr_toNat, zextByte_toNat]
    omega
  | ret j => exact toNat_add_le s.stk[j] 2 0xFFE _ (hstk j) (by decide)

/-- The instruction at PC of a running core keeps the invariant. -/
theorem Inv.exec {s t : State} (h : Inv s) (hm : s.mode = .run) (hstage : s.stage = .running)
    (hpc : s.pc.toNat ≤ 0xFFE) (ht : exec (decodeWord s.fetchWord) s = .next t) : Inv t := by
  obtain ⟨-, -, -, hnot, -⟩ := not_mem_partsWritten (decodeWord s.fetchWord)
  have hstage' : t.stage = s.stage := exec_part_same ht .stage hnot (by decide)
  rcases exec_mode_cases ht with ⟨c, w, hfault, rfl⟩ | ⟨x, hword, rfl⟩ |
    ⟨hf, hmode, -, hcause, hinfo⟩
  · exact h.raiseFault hstage (latchAgrees_of_specFault hfault)
  · exact h.enterWait hm hstage hpc hword
  · rw [hm] at hmode
    exact {
      mem_wf := exec_mem_wf hf ht h.mem_wf
      sp_le := exec_sp_le hf ht h.sp_le
      stk_le := exec_stk_le hf ht hpc h.stk_le
      pc_le := (exec_pcMove hf ht).le hpc h.stk_le
      wait_word := fun hw => by simp [hmode] at hw
      latch_empty := fun _ => by
        rw [hcause, hinfo]
        exact h.latch_empty (by simp [hm])
      latch_full := fun hw => by simp [hmode] at hw
      boot_run := fun _ => hmode }

/-- The Step event keeps the invariant. -/
theorem Inv.coreStep {s t : State} (h : Inv s) (ht : s.coreStep = .next t) : Inv t := by
  rcases State.coreStep_cases ht with ⟨-, rfl⟩ | ⟨-, hpc, rfl⟩ | ⟨hm, hpc, hexec⟩
  · exact h
  · exact h.setStage_running.raiseFault rfl ⟨rfl, hpc⟩
  · exact h.setStage_running.exec hm rfl hpc hexec

/-- Every event keeps the invariant (R30). -/
theorem Inv.apply {s t : State} {e : Event} (h : Inv s) (ht : s.apply e = .next t) : Inv t := by
  cases e with
  | step => exact h.coreStep ht
  | tick =>
    cases ht
    exact h.tick
  | key k pressed =>
    cases ht
    exact h.keyEvent k pressed
  | reset =>
    cases ht
    exact inv_resetEvent s
  | load image => exact h.load ht
  | fbRead =>
    cases ht
    exact h

/-- Settles O59: whichever event is next, it keeps the invariant, and taking it off the schedule
does not matter to it. -/
theorem everyStepKeepsTheInvariant : Obligations.EveryStepKeepsTheInvariant := by
  intro s t h ht
  rcases step_cases s with ⟨-, heq⟩ | ⟨e, rest, -, heq⟩
  · exact h.coreStep (heq.symm.trans ht)
  · exact (h.setSched rest).apply (heq.symm.trans ht)

/-- Settles O58: no clause of the invariant speaks of the schedule. -/
theorem invariantHoldsAtReset : Obligations.InvariantHoldsAtReset :=
  fun events => inv_reset.setSched events

end Sys2Proof.Machine

/-! ## MODE and who writes what (R22, R31) -/

namespace Sys2Proof.Machine

/-- All that an event other than a Step and Reset can do: move the timers, set a key (and end a key
wait), load memory before the first Step, or nothing (R30). -/
theorem State.apply_host_cases {s t : State} {e : Event} (h : s.apply e = .next t)
    (hstep : e ≠ .step) (hreset : e ≠ .reset) :
    (e = .tick ∧ t = s.tick) ∨
    (∃ k keys, e = .key k true ∧ s.mode = .waitKey ∧ t = (s.setKeys keys).completeWait k) ∨
    (∃ k pressed keys, e = .key k pressed ∧ t = s.setKeys keys) ∨
    (∃ image mem, e = .load image ∧ t = (s.setMem mem).setStage .loaded) ∨
    (e = .fbRead ∧ t = s) := by
  cases e with
  | step => exact absurd rfl hstep
  | reset => exact absurd rfl hreset
  | tick =>
    cases h
    exact .inl ⟨rfl, rfl⟩
  | key k pressed =>
    cases h
    rcases s.keyEvent_cases k pressed with ⟨rfl, hm, heq⟩ | ⟨-, heq⟩
    · exact .inr (.inl ⟨k, _, rfl, hm, heq⟩)
    · exact .inr (.inr (.inl ⟨k, pressed, _, rfl, heq⟩))
  | load image =>
    rcases s.load_cases image with ⟨-, -, heq⟩ | ⟨-, -, heq⟩ | ⟨-, heq⟩ <;>
      cases heq.symm.trans h
    rw [State.storeBytes_eq]
    exact .inr (.inr (.inr (.inl ⟨image, _, rfl, rfl⟩)))
  | fbRead =>
    cases h
    exact .inr (.inr (.inr (.inr ⟨rfl, rfl⟩)))

/-- All that a Step can do to MODE, WAITX and the latch: raise a fault, enter the key wait of the
instruction at PC, or leave them (R22, R23, R24). -/
theorem State.coreStep_mode_cases {s t : State} (h : s.coreStep = .next t) :
    (s.mode = .run ∧ ∃ c w, t = (s.setStage .running).raiseFault c w) ∨
    (s.mode = .run ∧ s.pc.toNat ≤ 0xFFE ∧ ∃ x, decodeWord s.fetchWord = .ldVxK x ∧
      t.mode = .waitKey ∧ t.waitx = x ∧ t.fcause = s.fcause ∧ t.finfo = s.finfo) ∨
    (t.mode = s.mode ∧ t.waitx = s.waitx ∧ t.fcause = s.fcause ∧ t.finfo = s.finfo) := by
  rcases State.coreStep_cases h with ⟨-, rfl⟩ | ⟨hm, -, rfl⟩ | ⟨hm, hpc, hexec⟩
  · exact .inr (.inr ⟨rfl, rfl, rfl, rfl⟩)
  · exact .inl ⟨hm, _, _, rfl⟩
  · rcases exec_mode_cases hexec with ⟨c, w, -, rfl⟩ | ⟨x, hword, rfl⟩ | ⟨-, hsame⟩
    · exact .inl ⟨hm, c, w, rfl⟩
    · exact .inr (.inl ⟨hm, hpc, x, hword, rfl, rfl, rfl, rfl⟩)
    · exact .inr (.inr hsame)

/-- A part outside MODE and the latch that a Step changes is one that the instruction at PC
writes. -/
theorem State.coreStep_part_same {s t : State} (h : s.coreStep = .next t) (p : Part)
    (hp : p ∉ partsWritten (decodeWord s.fetchWord))
    (hother : p ∉ [.mode, .fcause, .finfo, .stage]) : p.same s t := by
  simp only [List.mem_cons, List.not_mem_nil, or_false, not_or] at hother
  obtain ⟨hmode, hfcause, hfinfo, hstage⟩ := hother
  have hfault : p ∉ [.mode, .fcause, .finfo] := by simp [hmode, hfcause, hfinfo]
  have hstart : p.same s (s.setStage .running) :=
    (setStage_frame s .running).parts_same p (by simpa using hstage)
  rcases State.coreStep_cases h with ⟨-, rfl⟩ | ⟨-, -, rfl⟩ | ⟨-, -, hexec⟩
  · cases p <;> rfl
  · exact hstart.trans ((raiseFault_frame _ _ _).parts_same p hfault)
  · exact hstart.trans (exec_part_same hexec p hp hfault)

/-- R22's list of transitions, for any event but Reset. -/
theorem State.apply_mode_changes {s t : State} {e : Event} (h : s.apply e = .next t)
    (hreset : e ≠ .reset) (hne : t.mode ≠ s.mode) :
    (t.mode = .waitKey → e = .step ∧ s.mode = .run ∧ s.pc.toNat ≤ 0xFFE ∧
      ∃ x, decodeWord s.fetchWord = .ldVxK x) ∧
    (t.mode = .run → s.mode = .waitKey ∧ ∃ k, e = .key k true) ∧
    (t.mode = .fault → e = .step ∧ s.mode = .run ∧
      ∃ c w, t = (s.setStage .running).raiseFault c w) := by
  by_cases hstep : e = .step
  · subst hstep
    rcases State.coreStep_mode_cases h with ⟨hm, c, w, rfl⟩ | ⟨hm, hpc, x, hword, hwait, -⟩ |
      ⟨hsame, -⟩
    · exact ⟨fun hw => (nomatch hw), fun hr => (nomatch hr), fun _ => ⟨rfl, hm, c, w, rfl⟩⟩
    · simp [hwait, hm, hpc, hword]
    · exact absurd hsame hne
  · rcases State.apply_host_cases h hstep hreset with ⟨-, rfl⟩ | ⟨k, keys, he, hm, rfl⟩ |
      ⟨k, pressed, keys, -, rfl⟩ | ⟨image, mem, -, rfl⟩ | ⟨-, rfl⟩
    · exact absurd rfl hne
    · exact ⟨fun hw => (nomatch hw), fun _ => ⟨hm, k, he⟩, fun hf => (nomatch hf)⟩
    · exact absurd rfl hne
    · exact absurd rfl hne
    · exact absurd rfl hne

/-- Settles O48: the listed transitions happen, and the cases of an event show no other. -/
theorem modeChangesOnlyAsListed : Obligations.ModeChangesOnlyAsListed := by
  refine ⟨rfl, fun s => ⟨_, rfl, rfl⟩, ?_, fun _ _ _ => rfl, State.coreStep_held,
    fun s t e h hreset hne => State.apply_mode_changes h hreset hne, ?_⟩
  · intro s k hm
    rcases s.keyEvent_cases k true with ⟨-, -, heq⟩ | ⟨hnot, -⟩
    · exact ⟨_, congrArg _ heq, rfl⟩
    · exact absurd ⟨rfl, hm⟩ hnot
  · intro s x hm hpc hword
    exact ⟨_, (State.coreStep_inRange hm hpc).trans (by rw [hword]; rfl), rfl⟩

/-- What a Step leaves to the timer engine and the host, and when it writes the rest (R31). -/
theorem State.coreStep_writes {s t : State} (h : s.coreStep = .next t) :
    t.key = s.key ∧ (t.dt ≠ s.dt → ∃ x, decodeWord s.fetchWord = .ldDtVx x) ∧
    (t.st ≠ s.st → ∃ x, decodeWord s.fetchWord = .ldStVx x) ∧
    (t.waitx ≠ s.waitx → decodeWord s.fetchWord = .ldVxK t.waitx) ∧
    (t.fcause ≠ s.fcause ∨ t.finfo ≠ s.finfo → s.mode = .run ∧ t.mode = .fault) := by
  have hdt : .dt ∉ partsWritten (decodeWord s.fetchWord) → t.dt = s.dt :=
    fun hp => State.coreStep_part_same h .dt hp (by decide)
  have hst : .st ∉ partsWritten (decodeWord s.fetchWord) → t.st = s.st :=
    fun hp => State.coreStep_part_same h .st hp (by decide)
  refine ⟨State.coreStep_part_same h .key (not_mem_partsWritten _).1 (by decide),
    fun hne => ?_, fun hne => ?_, ?_⟩
  · exact (mem_partsWritten_dt _).1 (not_not.1 (mt hdt hne))
  · exact (mem_partsWritten_st _).1 (not_not.1 (mt hst hne))
  · rcases State.coreStep_mode_cases h with ⟨hm, c, w, rfl⟩ |
      ⟨-, -, x, hword, -, hx, hcause, hinfo⟩ | ⟨-, hx, hcause, hinfo⟩
    · exact ⟨fun hne => absurd rfl hne, fun _ => ⟨hm, rfl⟩⟩
    · simp [hword, hx, hcause, hinfo]
    · simp [hx, hcause, hinfo]

/-- Settles O50: a Step writes by the instruction at PC, the other events as their cases say. -/
theorem onlyTheNamedAgentsWrite : Obligations.OnlyTheNamedAgentsWrite := by
  intro s t e h hreset
  by_cases hstep : e = .step
  · subst hstep
    obtain ⟨hkey, hdt, hst, hwaitx, hlatch⟩ := State.coreStep_writes h
    simpa [hkey] using ⟨hdt, hst, hwaitx, hlatch⟩
  · rcases State.apply_host_cases h hstep hreset with ⟨rfl, rfl⟩ | ⟨k, keys, rfl, hm, rfl⟩ |
      ⟨k, pressed, keys, rfl, rfl⟩ | ⟨image, mem, rfl, rfl⟩ | ⟨rfl, rfl⟩
    · simp
    · simp [hm]
    · simp
    · simp
    · simp

end Sys2Proof.Machine

/-! ## VF (R12) -/

namespace Sys2Proof.Machine

/-- A register that an instruction does not write keeps its value, fault or not. -/
theorem exec_getV_same {i : Instr} {s t : State} (h : exec i s = .next t) (r : Reg)
    (hr : r ∉ regsWritten i) : t.getV r = s.getV r := by
  rcases exec_cases h with ⟨c, w, -, rfl⟩ | ⟨-, hframe⟩
  · rfl
  · exact hframe.regs_same r hr

/-- VF is written as a flag of the six, or named as the register to write. -/
theorem writesFlag_or_namesVf_of_vf_mem {i : Instr} (h : 15 ∈ regsWritten i) :
    writesFlag i = true ∨ namesVfAsDestination i = true := by
  cases i with
  | addReg x y | subReg x y | shr x y | subnReg x y | shl x y | drw x y n => exact .inl rfl
  | ldImm x _ | addImm x _ | ldReg x _ | orReg x _ | andReg x _ | xorReg x _ | rnd x _
  | ldVxDt x =>
    exact .inr (beq_iff_eq.2 (List.mem_singleton.1 h).symm)
  | ldRegs x =>
    have hx : 15 ≤ x := (mem_regsUpTo x 15).1 h
    exact .inr (beq_iff_eq.2 (Fin.le_antisymm (Fin.le_last x) hx))
  | _ => cases h

theorem flagByte_eq_zero_or_one (f : Bool) : flagByte f = 0 ∨ flagByte f = 1 := by
  cases f with
  | false => exact .inl rfl
  | true => exact .inr rfl

/-- After the writes of a flag-writing ALU instruction VF is the flag, unless x = F (R122). -/
theorem State.getV_vf_writeFlagged (s : State) {x : Reg} (f : Bool) (b : Byte)
    (hx : (x == 15) = false) : (s.writeFlagged x f b).getV 15 = flagByte f := by
  have hne : (15 : Reg) ≠ x := fun heq => by simp [← heq] at hx
  rw [State.getV_writeFlagged, if_neg hne]
  rfl

/-- A flag is 0 or 1 (R12, R123). -/
theorem exec_flag_zero_or_one {i : Instr} {s t : State} (h : exec i s = .next t)
    (hw : writesFlag i = true) (hd : namesVfAsDestination i = false)
    (hf : specFault i s = none) : t.getV 15 = 0 ∨ t.getV 15 = 1 := by
  cases i with
  | addReg x y | subReg x y | shr x y | subnReg x y | shl x y =>
    cases h
    rw [State.getV_vf_writeFlagged s _ _ hd]
    exact flagByte_eq_zero_or_one _
  | drw x y n =>
    cases (exec_drw_of_no_fault hf).symm.trans h
    have hvf (u : State) (b : Byte) : ((u.setV vf b).advance).getV 15 = b :=
      State.getV_setV_same u vf b
    rw [State.drawOnto, hvf]
    exact flagByte_eq_zero_or_one _
  | _ => cases hw

/-- Settles O30: VF changes only if it is among the registers written, and flags are bits. -/
theorem vfChangesOnlyAsFlagOrDestination : Obligations.VfChangesOnlyAsFlagOrDestination :=
  ⟨fun _ _ _ h hne => writesFlag_or_namesVf_of_vf_mem
      (by_contra fun hr => hne (exec_getV_same h 15 hr)),
    fun _ _ _ h hw hd hf => exec_flag_zero_or_one h hw hd hf⟩

/-! ## The timers (R17, R18, R32) -/

/-- The state with other timers. -/
def State.setTimers (s : State) (d e : Byte) : State := (s.setDt d).setSt e

theorem State.tick_eq_setTimers (s : State) :
    s.tick = s.setTimers (countDown s.dt) (countDown s.st) := rfl

theorem State.setSt_eq_setTimers (s : State) (b : Byte) : s.setSt b = s.setTimers s.dt b := rfl

theorem State.readBytes_setTimers (s : State) (d e : Byte) (a n : Nat) :
    (s.setTimers d e).readBytes a n = s.readBytes a n := by
  induction n generalizing a with
  | zero => rfl
  | succ n ih => exact congrArg _ (ih (a + 1))

theorem State.spriteOf_setTimers (s : State) (d e : Byte) (x y : Reg) (n : Nat) :
    (s.setTimers d e).spriteOf x y n = s.spriteOf x y n :=
  congrArg _ (s.readBytes_setTimers d e _ n)

theorem State.storeRegs_setTimers (s : State) (d e : Byte) (a n : Nat) :
    (s.setTimers d e).storeRegs a n = (s.storeRegs a n).setTimers d e := by
  induction n with
  | zero => rfl
  | succ n ih =>
    simp only [State.storeRegs]
    split
    · rw [ih]
      rfl
    · exact ih

theorem State.loadRegs_setTimers (s : State) (d e : Byte) (a n : Nat) :
    (s.setTimers d e).loadRegs a n = (s.loadRegs a n).setTimers d e := by
  induction n with
  | zero => rfl
  | succ n ih =>
    simp only [State.loadRegs]
    split
    · rw [ih]
      rfl
    · exact ih

theorem State.skipOnKey_setTimers (s : State) (d e : Byte) (x : Reg) (level : Bool) :
    (s.setTimers d e).skipOnKey x level = (s.skipOnKey x level).setTimers d e := by
  have hkey : (s.setTimers d e).keyAt ((s.setTimers d e).getV x) = s.keyAt (s.getV x) := rfl
  rw [State.skipOnKey, State.skipOnKey, hkey]
  cases s.keyAt (s.getV x) <;> rfl

/-- Whether and how an instruction faults does not depend on the timers. -/
theorem specFault_setTimers (i : Instr) (s : State) (d e : Byte) :
    specFault i (s.setTimers d e) = specFault i s := by
  cases i <;> rfl

/-- An instruction that touches no timer does the same with other timers (R17, R18). -/
theorem exec_setTimers {i : Instr} {s t : State} (d e : Byte) (hi : touchesTimer i = false)
    (h : exec i s = .next t) : exec i (s.setTimers d e) = .next (t.setTimers d e) := by
  cases hf : specFault i s with
  | some f =>
    cases (exec_of_fault hf).symm.trans h
    exact exec_of_fault ((specFault_setTimers i s d e).trans hf)
  | none =>
    have hf' := (specFault_setTimers i s d e).trans hf
    cases i with
    | ldVxDt x | ldDtVx x | ldStVx x => cases hi
    | drw x y n =>
      cases (exec_drw_of_no_fault hf).symm.trans h
      rw [exec_drw_of_no_fault hf', State.spriteOf_setTimers]
      rfl
    | ldB x =>
      cases (exec_ldB_of_no_fault hf).symm.trans h
      exact exec_ldB_of_no_fault hf'
    | stRegs x =>
      cases (exec_stRegs_of_no_fault hf).symm.trans h
      rw [exec_stRegs_of_no_fault hf', State.storeRegs_setTimers]
      rfl
    | ldRegs x =>
      cases (exec_ldRegs_of_no_fault hf).symm.trans h
      rw [exec_ldRegs_of_no_fault hf', State.loadRegs_setTimers]
      rfl
    | skp x | sknp x =>
      cases h
      exact congrArg _ (s.skipOnKey_setTimers d e x _)
    | call nnn =>
      obtain ⟨hsp, heq⟩ := exec_call_of_no_fault hf
      obtain ⟨_, heq'⟩ := exec_call_of_no_fault hf'
      cases heq.symm.trans h
      exact heq'
    | ret =>
      obtain ⟨hsp, hj, rfl⟩ := exec_ret_of_no_fault hf h
      exact exec_ret_of_entry (s := s.setTimers d e) hsp hj
    | _ =>
      cases h
      rfl

/-- An instruction that touches no timer writes no timer (R17, R18). -/
theorem exec_timers_same {i : Instr} {s t : State} (hi : touchesTimer i = false)
    (h : exec i s = .next t) : t.dt = s.dt ∧ t.st = s.st := by
  have hdt : .dt ∉ partsWritten i := fun hp => by
    obtain ⟨x, rfl⟩ := (mem_partsWritten_dt i).1 hp
    cases hi
  have hst : .st ∉ partsWritten i := fun hp => by
    obtain ⟨x, rfl⟩ := (mem_partsWritten_st i).1 hp
    cases hi
  exact ⟨exec_part_same h .dt hdt (by decide), exec_part_same h .st hst (by decide)⟩

/-- Settles O51: a Tick only replaces the timers, by values that the instruction leaves alone. -/
theorem ticksCommuteWithOtherInstructions : Obligations.TicksCommuteWithOtherInstructions := by
  intro i s t hi h
  obtain ⟨hdt, hst⟩ := exec_timers_same hi h
  rw [State.tick_eq_setTimers, State.tick_eq_setTimers, hdt, hst]
  exact exec_setTimers _ _ hi h

/-- Settles O52: an instruction that touches no timer does the same with another ST, and of the
other three only LD ST, Vx concerns ST, which it overwrites. -/
theorem noInstructionReadsTheSoundTimer : Obligations.NoInstructionReadsTheSoundTimer := by
  intro i s t b h
  cases hi : touchesTimer i with
  | false =>
    obtain ⟨hdt, hst⟩ := exec_timers_same hi h
    refine ⟨t.setTimers s.dt b, exec_setTimers s.dt b hi h, ?_, fun _ => ⟨rfl, hst⟩⟩
    rw [← hdt]
    rfl
  | true =>
    cases i with
    | ldVxDt x | ldDtVx x =>
      cases h
      exact ⟨_, rfl, rfl, fun _ => ⟨rfl, rfl⟩⟩
    | ldStVx x =>
      cases h
      exact ⟨_, rfl, rfl, fun hne => absurd rfl (hne x)⟩
    | _ => cases hi

/-! ## Reset (R29, R190) -/

/-- Whatever is still to come from outside, the pieces of the machine are at their values of R29. -/
theorem atReset_resetEvent (s : State) : AtReset s.resetEvent where
  v_zero r := by simp [State.resetEvent, State.reset, State.getV]
  i_zero := rfl
  pc_entry := rfl
  sp_zero := rfl
  stk_zero j := by simp [State.resetEvent, State.reset]
  dt_zero := rfl
  st_zero := rfl
  mem_font a ha := if_pos ha
  mem_zero a ha _ := if_neg (Nat.not_lt.2 ha)
  fb_zero row col := cellAt_blank row col
  key_zero k := by simp [State.resetEvent, State.reset]
  mode_run := rfl
  waitx_zero := rfl
  fcause_none := rfl
  finfo_zero := rfl

/-- Settles O54: the state after reset is that of a Reset event with nothing to come. -/
theorem resetGivesEveryPieceItsValue : Obligations.ResetGivesEveryPieceItsValue :=
  ⟨rfl, atReset_resetEvent State.reset, fun s => ⟨_, rfl, atReset_resetEvent s⟩⟩

end Sys2Proof.Machine

/-! PROOFS, family `20_memory.md`. First the two bytes of an instruction word. Then what an
address reads as after a store without a fault, said once for both stores (`State.afterStore`), and
the fetch that sees it. -/

/-! ## The bytes of an instruction (R42, R60) -/

namespace Sys2Proof

/-- The word of two bytes is the one whose value is 256 times the high byte plus the low one. -/
theorem eq_wordOfBytes {w : Word} {hi lo : Byte} (h : w.toNat = hi.toNat * 256 + lo.toNat) :
    w = wordOfBytes hi lo :=
  BitVec.eq_of_toNat_eq (h.trans (wordOfBytes_toNat hi lo).symm)

theorem decode_of_length_lt_two {bytes : List Byte} (h : bytes.length < 2) :
    decode bytes = .error .truncated := by
  match bytes with
  | [] => rfl
  | [_] => rfl
  | _ :: _ :: rest => exact absurd h (Nat.not_lt.2 (Nat.le_add_left 2 rest.length))

end Sys2Proof

namespace Sys2Proof.Machine

/-- Settles O6: both the decoder and the read of a word put the byte read first on top. -/
theorem instructionBytesAreBigEndian : Obligations.InstructionBytesAreBigEndian := by
  refine ⟨fun hi lo rest w hw => ?_, fun _ => decode_of_length_lt_two,
    fun s a => wordOfBytes_toNat (s.readByte a) (s.readByte (a + 1))⟩
  rw [eq_wordOfBytes hw]
  rfl

/-! ## What a store leaves at an address, and the fetch of it (R44, R54) -/

/-- A memory that holds the bytes from I upward, and elsewhere what it held before, reads at every
address as `afterStore` says. -/
theorem State.readByte_eq_afterStore {s t : State} {bytes : List Byte}
    (hin : ∀ j (h : j < bytes.length), t.readByte (s.i.toNat + j) = bytes[j])
    (hout : ∀ a, a ∉ s.dataAddrs bytes.length → t.readByte a = s.readByte a) (a : Nat) :
    t.readByte a = s.afterStore bytes a := by
  by_cases ha : a ∈ s.dataAddrs bytes.length
  · obtain ⟨j, hj, rfl⟩ := List.mem_map.1 ha
    have hlt : j < bytes.length := List.mem_range.1 hj
    exact (hin j hlt).trans (s.afterStore_inside bytes j hlt).symm
  · rw [hout a ha, State.afterStore_outside]
    rw [State.mem_dataAddrs] at ha
    omega

/-- Every address after 0xFx55 (R134). -/
theorem readByte_of_exec_stRegs {x : Reg} {s t : State} (hwf : Memory.wf s.mem = true)
    (hi : s.i.toNat + x.val ≤ 0xFFF) (h : exec (.stRegs x) s = .next t) (a : Nat) :
    t.readByte a = s.afterStore (storedRegs s x) a := by
  have hf : specFault (.stRegs x) s = none := if_neg (by omega)
  cases (exec_stRegs_of_no_fault hf).symm.trans h
  have hlen : (storedRegs s x).length = regCount x := storedRegs_length s x
  refine State.readByte_eq_afterStore (fun j hj => ?_) (fun p hp => ?_) a
  · have hjx : j < regCount x := hlen ▸ hj
    have hj16 : j < 16 := Nat.lt_of_lt_of_le hjx x.isLt
    have hspan : s.i.toNat + regCount x ≤ Config.memSize := Nat.succ_le_succ hi
    exact (s.readByte_storeRegs_inside s.i.toNat (regCount x) ⟨j, hj16⟩ hspan hjx hwf).trans
      (storedRegs_getElem s x ⟨j, hj16⟩ hj).symm
  · exact (storeRegs_frame s (regCount x)).mem_same p (hlen ▸ hp)

/-- Every address after 0xFx33 (R133). -/
theorem readByte_of_exec_ldB {x : Reg} {s t : State} (hwf : Memory.wf s.mem = true)
    (hi : s.i.toNat + 2 ≤ 0xFFF) (h : exec (.ldB x) s = .next t) (a : Nat) :
    t.readByte a = s.afterStore (storedDigits s x) a := by
  have hf : specFault (.ldB x) s = none := if_neg (by omega)
  cases (exec_ldB_of_no_fault hf).symm.trans h
  refine State.readByte_eq_afterStore (fun j hj => ?_) (fun p hp => ?_) a
  · have hspan : s.i.toNat + (storedDigits s x).length ≤ Config.memSize := Nat.succ_le_succ hi
    exact s.readByte_storeBytes_inside s.i.toNat j (storedDigits s x) hspan hj hwf
  · exact (storeBytes_frame s (storedDigits s x)).mem_same p hp

/-- A Step fetches what memory reads as at PC and PC + 1, whatever else of the state differs from
the state that memory is taken from (R54, R64). -/
theorem State.apply_step_of_readByte {t u : State} {f : Nat → Byte}
    (hread : ∀ a, t.readByte a = f a) (hmem : u.mem = t.mem) (hm : u.mode = .run)
    (hpc : u.pc.toNat ≤ 0xFFE) :
    u.apply .step = exec (decodeWord (wordOfBytes (f u.pc.toNat) (f (u.pc.toNat + 1))))
      (u.setStage .running) := by
  have hu (a : Nat) : u.readByte a = f a := (congrArg (readCell · a) hmem).trans (hread a)
  rw [← hu, ← hu]
  exact State.coreStep_inRange hm hpc

/-- Settles O36: after either store every address reads as `afterStore` says, those of the fetch
among them. -/
theorem storedBytesAreFetchedNext : Obligations.StoredBytesAreFetchedNext :=
  ⟨fun _ _ _ _ hwf hi h => State.apply_step_of_readByte (readByte_of_exec_stRegs hwf hi h),
    fun _ _ _ _ hwf hi h => State.apply_step_of_readByte (readByte_of_exec_ldB hwf hi h)⟩

end Sys2Proof.Machine

/-! PROOFS, family `30_encoding.md`. First two facts about the decoder, family by family: `encode`
undoes it (`encode_decodeWord`), and it takes the catch-all exactly for the words that match no row
(`decodeWord_eq_unrec_iff`). From these follow the round trips and the opcode map. Then the words of
R67, the instruction cycle, and PC (R70). -/

/-! ## Encoding what was decoded (R62, R65) -/

namespace Sys2Proof

/-- The families of the decoder, one for each value of the top nibble (R64). -/
theorem topOf_cases (w : Word) :
    topOf w = 0x0 ∨ topOf w = 0x1 ∨ topOf w = 0x2 ∨ topOf w = 0x3 ∨ topOf w = 0x4 ∨
    topOf w = 0x5 ∨ topOf w = 0x6 ∨ topOf w = 0x7 ∨ topOf w = 0x8 ∨ topOf w = 0x9 ∨
    topOf w = 0xA ∨ topOf w = 0xB ∨ topOf w = 0xC ∨ topOf w = 0xD ∨ topOf w = 0xE ∨
    topOf w = 0xF := by
  generalize topOf w = t
  revert t
  decide

/-- Format NNN with the top nibble of the word's family. -/
theorem encodeNNN_of_top {w : Word} {t : BitVec 4} (h : topOf w = t) :
    encodeNNN t (nnnOf w) = w :=
  h ▸ encodeNNN_fields w

/-- Format XKK with the top nibble of the word's family. -/
theorem encodeXKK_of_top {w : Word} {t : BitVec 4} (h : topOf w = t) :
    encodeXKK t (xOf w) (kkOf w) = w :=
  h ▸ encodeXKK_fields w

/-- Format X with the top nibble and the `lo8` of the word's row. -/
theorem encodeXKK_of_lo8 {w : Word} {t : BitVec 4} {k : Byte} (h : topOf w = t) (hk : kkOf w = k) :
    encodeXKK t (xOf w) k = w :=
  hk ▸ encodeXKK_of_top h

/-- Format XYN with the top nibble of the word's family. -/
theorem encodeXYN_of_top {w : Word} {t : BitVec 4} (h : topOf w = t) :
    encodeXYN t (xOf w) (yOf w) (nBits w) = w :=
  h ▸ encodeXYN_fields w

/-- Format XY with the top nibble and the `lo4` of the word's row. -/
theorem encodeXYN_of_lo4 {w : Word} {t n : BitVec 4} (h : topOf w = t) (hn : nBits w = n) :
    encodeXYN t (xOf w) (yOf w) n = w :=
  hn ▸ encodeXYN_of_top h

/-- `encode` on one test of the decoder: the branch taken knows the test's outcome. -/
theorem encode_ite {c : Prop} [Decidable c] {i j : Instr} {w : Word} (hi : c → encode i = w)
    (hj : ¬c → encode j = w) : encode (if c then i else j) = w := by
  split
  · exact hi ‹_›
  · exact hj ‹_›

/-- Three whole words, and the catch-all. -/
theorem encode_decodeZero (w : Word) : encode (decodeZero w) = w := by
  iterate 3 refine encode_ite Eq.symm fun _ => ?_
  rfl

/-- Nine values of `lo4`, and the catch-all. -/
theorem encode_decodeEight {w : Word} (h : topOf w = 0x8) : encode (decodeEight w) = w := by
  iterate 9 refine encode_ite (encodeXYN_of_lo4 h) fun _ => ?_
  rfl

/-- Two values of `lo8`, and the catch-all. -/
theorem encode_decodeE {w : Word} (h : topOf w = 0xE) : encode (decodeE w) = w := by
  iterate 2 refine encode_ite (encodeXKK_of_lo8 h) fun _ => ?_
  rfl

/-- Nine values of `lo8`, and the catch-all. -/
theorem encode_decodeF {w : Word} (h : topOf w = 0xF) : encode (decodeF w) = w := by
  iterate 9 refine encode_ite (encodeXKK_of_lo8 h) fun _ => ?_
  rfl

/-- No bit of a word is lost by decoding it. The branches are the decoder's, in its order. -/
theorem encode_decodeWord (w : Word) : encode (decodeWord w) = w := by
  refine encode_ite (fun _ => encode_decodeZero w) fun _ => ?_
  refine encode_ite encodeNNN_of_top fun _ => ?_
  refine encode_ite encodeNNN_of_top fun _ => ?_
  refine encode_ite encodeXKK_of_top fun _ => ?_
  refine encode_ite encodeXKK_of_top fun _ => ?_
  refine encode_ite (fun h => encode_ite (encodeXYN_of_lo4 h) fun _ => rfl) fun _ => ?_
  refine encode_ite encodeXKK_of_top fun _ => ?_
  refine encode_ite encodeXKK_of_top fun _ => ?_
  refine encode_ite encode_decodeEight fun _ => ?_
  refine encode_ite (fun h => encode_ite (encodeXYN_of_lo4 h) fun _ => rfl) fun _ => ?_
  refine encode_ite encodeNNN_of_top fun _ => ?_
  refine encode_ite encodeNNN_of_top fun _ => ?_
  refine encode_ite encodeXKK_of_top fun _ => ?_
  refine encode_ite encodeXYN_of_top fun _ => ?_
  refine encode_ite encode_decodeE fun _ => ?_
  have hF : topOf w = 0xF := by
    have := topOf_cases w
    simp_all
  exact encode_decodeF hF

/-! ## The catch-all (R65, R67) -/

theorem decodeZero_eq_unrec_iff (w : Word) :
    decodeZero w = .unrec w ↔ w ≠ 0x0000 ∧ w ≠ 0x00E0 ∧ w ≠ 0x00EE := by
  simp [decodeZero, ite_eq_iff]

theorem decodeEight_eq_unrec_iff (w : Word) :
    decodeEight w = .unrec w ↔ nBits w ∉ [0x0, 0x1, 0x2, 0x3, 0x4, 0x5, 0x6, 0x7, 0xE] := by
  simp [decodeEight, ite_eq_iff]

theorem decodeE_eq_unrec_iff (w : Word) : decodeE w = .unrec w ↔ kkOf w ∉ [0x9E, 0xA1] := by
  simp [decodeE, ite_eq_iff]

theorem decodeF_eq_unrec_iff (w : Word) : decodeF w = .unrec w ↔
    kkOf w ∉ [0x07, 0x0A, 0x15, 0x18, 0x1E, 0x29, 0x33, 0x55, 0x65] := by
  simp [decodeF, ite_eq_iff]

/-- In family 0x0 the operand field is the whole word. -/
theorem nnnOf_eq_iff_of_top_zero {w : Word} (h : topOf w = 0x0) (a : Addr12) :
    nnnOf w = a ↔ w = zextAddr a := by
  have hw : w.toNat / 4096 = 0 := (topOf_toNat w).symm.trans (congrArg BitVec.toNat h)
  rw [← BitVec.toNat_inj, ← BitVec.toNat_inj, nnnOf_toNat, Machine.zextAddr_toNat]
  omega

open Laws in
/-- The decoder takes the catch-all exactly for the words that match no row: in each family the
sub-opcodes that the decoder tests are those of the rows. -/
theorem decodeWord_eq_unrec_iff (w : Word) :
    decodeWord w = .unrec w ↔ unrecognized w = true := by
  obtain h | h | h | h | h | h | h | h | h | h | h | h | h | h | h | h := topOf_cases w
  all_goals
    simp [h, decodeWord, decodeZero_eq_unrec_iff, decodeEight_eq_unrec_iff, decodeE_eq_unrec_iff,
      decodeF_eq_unrec_iff, unrecognized, opcodeRows, opcodeRowsA_fields, opcodeRowsB_fields,
      opcodeRowsC_fields, matches_all, matches_top, matches_lo4, matches_lo8,
      nnnOf_eq_iff_of_top_zero, zextAddr]

theorem unrecognized_iff (w : Word) :
    unrecognized w = true ↔ ∀ r ∈ opcodeRows, w &&& r.mask ≠ r.pattern := by
  simp [unrecognized, OpcodeRow.matchesWord]

/-- Every word has one meaning, and the catch-all holds only words that match no row (R67). -/
theorem wellFormed_decodeWord (w : Word) : WellFormed (decodeWord w) = true := by
  cases h : decodeWord w with
  | unrec w' =>
    have hw : w' = w := (congrArg encode h).symm.trans (encode_decodeWord w)
    exact (decodeWord_eq_unrec_iff w').1 (hw ▸ h)
  | _ => rfl

/-- Reading the fields of an instruction's own word gives the instruction back: the top nibble and
the sub-opcode select its row, the operand fields are its operands. -/
theorem decodeWord_encode {i : Instr} (h : WellFormed i = true) : decodeWord (encode i) = i := by
  cases i with
  | unrec w => exact (decodeWord_eq_unrec_iff w).2 h
  | nop | cls | ret => rfl
  | jp nnn | call nnn | ldI nnn | jpV0 nnn => simp [encode, decodeWord]
  | seImm x kk | sneImm x kk | ldImm x kk | addImm x kk | rnd x kk => simp [encode, decodeWord]
  | seReg x y | sneReg x y | drw x y n => simp [encode, decodeWord]
  | ldReg x y | orReg x y | andReg x y | xorReg x y | addReg x y | subReg x y | shr x y
  | subnReg x y | shl x y => simp [encode, decodeWord, decodeEight]
  | skp x | sknp x => simp [encode, decodeWord, decodeE]
  | _ => simp [encode, decodeWord, decodeF]

/-- Settles O2: see `decodeWord_encode`. -/
theorem decodeOfEncodeIsTheInstruction : Obligations.DecodeOfEncodeIsTheInstruction :=
  fun _ => decodeWord_encode

/-- Settles O3: no branch of the decoder loses a bit, and only words without a row reach the
catch-all. -/
theorem encodeOfDecodeIsTheWord : Obligations.EncodeOfDecodeIsTheWord :=
  fun w => ⟨wellFormed_decodeWord w, encode_decodeWord w⟩

/-! ## The opcode map (R65) -/

open Laws in
/-- The word of a well-formed instruction matches its own row and no other. -/
theorem encodesInItsRow : ∀ i, EncodesInItsRow.Statement i
  | .nop => EncodesInItsRow.nop
  | .cls => EncodesInItsRow.cls
  | .ret => EncodesInItsRow.ret
  | .jp nnn => EncodesInItsRow.jp nnn
  | .call nnn => EncodesInItsRow.call nnn
  | .seImm x kk => EncodesInItsRow.seImm x kk
  | .sneImm x kk => EncodesInItsRow.sneImm x kk
  | .seReg x y => EncodesInItsRow.seReg x y
  | .ldImm x kk => EncodesInItsRow.ldImm x kk
  | .addImm x kk => EncodesInItsRow.addImm x kk
  | .ldReg x y => EncodesInItsRow.ldReg x y
  | .orReg x y => EncodesInItsRow.orReg x y
  | .andReg x y => EncodesInItsRow.andReg x y
  | .xorReg x y => EncodesInItsRow.xorReg x y
  | .addReg x y => EncodesInItsRow.addReg x y
  | .subReg x y => EncodesInItsRow.subReg x y
  | .shr x y => EncodesInItsRow.shr x y
  | .subnReg x y => EncodesInItsRow.subnReg x y
  | .shl x y => EncodesInItsRow.shl x y
  | .sneReg x y => EncodesInItsRow.sneReg x y
  | .ldI nnn => EncodesInItsRow.ldI nnn
  | .jpV0 nnn => EncodesInItsRow.jpV0 nnn
  | .rnd x kk => EncodesInItsRow.rnd x kk
  | .drw x y n => EncodesInItsRow.drw x y n
  | .skp x => EncodesInItsRow.skp x
  | .sknp x => EncodesInItsRow.sknp x
  | .ldVxDt x => EncodesInItsRow.ldVxDt x
  | .ldVxK x => EncodesInItsRow.ldVxK x
  | .ldDtVx x => EncodesInItsRow.ldDtVx x
  | .ldStVx x => EncodesInItsRow.ldStVx x
  | .addI x => EncodesInItsRow.addI x
  | .ldF x => EncodesInItsRow.ldF x
  | .ldB x => EncodesInItsRow.ldB x
  | .stRegs x => EncodesInItsRow.stRegs x
  | .ldRegs x => EncodesInItsRow.ldRegs x
  | .unrec w => EncodesInItsRow.unrec w

/-- A word matches the row of the instruction it decodes to and no other. -/
theorem matches_iff_row_decodeWord (w : Word) {r : OpcodeRow} (hr : r ∈ opcodeRows) :
    w &&& r.mask = r.pattern ↔ (decodeWord w).row = r.num := by
  have h := encodesInItsRow (decodeWord w) (wellFormed_decodeWord w) r hr
  rw [encode_decodeWord, OpcodeRow.matchesWord, decide_eq_true_iff] at h
  exact h.trans eq_comm

theorem opcodeRows_num_injective {r r' : OpcodeRow} (hr : r ∈ opcodeRows) (hr' : r' ∈ opcodeRows)
    (h : r.num = r'.num) : r = r' :=
  List.inj_on_of_nodup_map (f := OpcodeRow.num) (by decide) hr hr' h

/-- Settles O4: two rows that a word matches are both the row of what it decodes to. -/
theorem decoderFollowsTheOpcodeMap : Obligations.DecoderFollowsTheOpcodeMap := by
  refine ⟨fun w _ => matches_iff_row_decodeWord w, fun w r hr r' hr' h h' => ?_, fun w => ?_⟩
  · exact opcodeRows_num_injective hr hr' <|
      ((matches_iff_row_decodeWord w hr).1 h).symm.trans ((matches_iff_row_decodeWord w hr').1 h')
  · rw [← unrecognized_iff, decodeWord_eq_unrec_iff]

/-! ## The unrecognized words (R67) -/

theorem nBits_eq_iff (w : Word) (n : BitVec 4) : nBits w = n ↔ w.toNat % 16 = n.toNat := by
  rw [← nBits_toNat, BitVec.toNat_inj]

theorem kkOf_eq_iff (w : Word) (k : Byte) : kkOf w = k ↔ w.toNat % 256 = k.toNat := by
  rw [← kkOf_toNat, BitVec.toNat_inj]

/-- R67 (c): the sub-opcodes of family 0x8 without a row, as numbers. -/
theorem decodeEight_eq_unrec_iff_lo4 (w : Word) :
    decodeEight w = .unrec w ↔ 8 ≤ w.toNat % 16 ∧ w.toNat % 16 ≠ 0xE := by
  rw [decodeEight_eq_unrec_iff, ← nBits_toNat]
  generalize nBits w = n
  revert n
  decide

/-- Settles O5: family by family, the words that the decoder gives to the catch-all. -/
theorem unrecognizedWordsAreExactlyTheListedOnes :
    Obligations.UnrecognizedWordsAreExactlyTheListedOnes := by
  intro w
  rw [← topOf_toNat]
  obtain h | h | h | h | h | h | h | h | h | h | h | h | h | h | h | h := topOf_cases w
  all_goals
    simp [h, decodeWord, decodeZero_eq_unrec_iff, decodeEight_eq_unrec_iff_lo4,
      decodeE_eq_unrec_iff, decodeF_eq_unrec_iff, nBits_eq_iff, kkOf_eq_iff]

/-- Settles O1, by running the decoder. -/
theorem exampleWordsDecodeAsNamed : Obligations.ExampleWordsDecodeAsNamed := by
  unfold Obligations.ExampleWordsDecodeAsNamed
  decide

end Sys2Proof

/-! ## The instruction cycle (R64) -/

namespace Sys2Proof.Machine

/-- Settles O7: the two bytes at PC are the word that the Step fetches. -/
theorem stepRunsTheDecodedInstruction : Obligations.StepRunsTheDecodedInstruction := by
  intro s i hsched hm hpc hdec
  obtain rfl : decodeWord s.fetchWord = i := by
    cases hdec
    rfl
  refine ⟨wellFormed_decodeWord _, ?_⟩
  rcases step_cases s with ⟨-, heq⟩ | ⟨e, rest, hcons, -⟩
  · exact heq.trans (State.coreStep_inRange hm hpc)
  · cases hsched.symm.trans hcons

/-- Settles O8: the three cases of a Step. -/
theorem stepEventFetchesDecodesExecutes : Obligations.StepEventFetchesDecodesExecutes :=
  fun s => ⟨s.coreStep_held, State.coreStep_outOfRange, State.coreStep_inRange⟩

/-! ## PC (R70) -/

@[simp] theorem State.logicOp_pc (s : State) (op : Byte → Byte → Byte) (x y : Reg) :
    (s.logicOp op x y).pc = s.pc + 2 := rfl

@[simp] theorem State.drawOnto_pc (s : State) (cells : List (Fin 32 × Fin 64)) :
    (s.drawOnto cells).pc = s.pc := rfl

@[simp] theorem State.storeBytes_pc (s : State) (a : Nat) (bs : List Byte) :
    (s.storeBytes a bs).pc = s.pc := by
  rw [State.storeBytes_eq, State.setMem_pc]

@[simp] theorem State.storeRegs_pc (s : State) (a n : Nat) : (s.storeRegs a n).pc = s.pc := by
  rw [State.storeRegs_eq, State.setMem_pc]

@[simp] theorem State.loadRegs_pc (s : State) (a n : Nat) : (s.loadRegs a n).pc = s.pc := by
  rw [State.loadRegs_eq]

/-- `JP V0, nnn` does not wrap: 12 bits and 8 bits are summed in 16 (R84). -/
theorem zextAddr_add_zextByte_toNat (nnn : Addr12) (b : Byte) :
    (zextAddr nnn + zextByte b).toNat = nnn.toNat + b.toNat := by
  have := nnn.isLt
  have := b.isLt
  rw [BitVec.toNat_add, zextAddr_toNat, zextByte_toNat]
  omega

/-- Settles O53: a fault is the latch alone; without one, PC is what the instruction's meaning
writes, and `Instr.row` picks the clause that speaks of it. -/
theorem pcBehaviourOfEveryRow : Obligations.PcBehaviourOfEveryRow := by
  intro i s t h
  refine ⟨fun hf => ?_, fun hf => ?_⟩
  · rcases exec_cases h with ⟨c, w, -, rfl⟩ | ⟨hnone, -⟩
    · rfl
    · exact absurd hnone hf
  cases i with
  | jp nnn =>
    cases h
    simp [Instr.row, zextAddr_toNat]
  | call nnn =>
    obtain ⟨hsp, heq⟩ := exec_call_of_no_fault hf
    cases heq.symm.trans h
    simp [Instr.row, zextAddr_toNat]
  | jpV0 nnn =>
    cases h
    simpa [Instr.row] using zextAddr_add_zextByte_toNat nnn (s.getV 0)
  | ret =>
    obtain ⟨-, hj, rfl⟩ := exec_ret_of_no_fault hf h
    simp [Instr.row]
  | seImm x kk | sneImm x kk | seReg x y | sneReg x y =>
    obtain ⟨cond, rfl⟩ : ∃ cond, t = s.skipIf cond := ⟨_, (Host.Outcome.next.inj h).symm⟩
    cases cond <;> simp [Instr.row]
  | skp x | sknp x =>
    obtain ⟨cond, rfl⟩ := skipOnKey_of_no_fault hf h
    cases cond <;> simp [Instr.row]
  | drw x y n =>
    cases (exec_drw_of_no_fault hf).symm.trans h
    simp [Instr.row]
  | ldB x =>
    cases (exec_ldB_of_no_fault hf).symm.trans h
    simp [Instr.row]
  | stRegs x =>
    cases (exec_stRegs_of_no_fault hf).symm.trans h
    simp [Instr.row]
  | ldRegs x =>
    cases (exec_ldRegs_of_no_fault hf).symm.trans h
    simp [Instr.row]
  | _ =>
    cases h
    simp [Instr.row]

end Sys2Proof.Machine

/-! PROOFS, family `40_flow.md`. What CALL and RET do under a condition on SP, said once for each;
the statements are read off from these, from `exec_frame` and from the decoder's round trip. -/

namespace Sys2Proof.Machine

/-! ## Call and return under a condition on SP (R15, R81, R83) -/

/-- SP does not wrap when a call raises it. -/
theorem add_one_toNat_of_lt {b : Byte} (h : b.toNat < 16) : (b + 1).toNat = b.toNat + 1 := by
  bv_omega

/-- SP does not wrap when a return lowers it. -/
theorem sub_one_toNat {b : Byte} {n : Nat} (h : b.toNat = n + 1) : (b - 1).toNat = n := by
  bv_omega

theorem specFault_call_of_lt {s : State} (nnn : Addr12) (hsp : s.sp.toNat < 16) :
    specFault (.call nnn) s = none :=
  if_neg (Nat.not_le.2 hsp)

/-- A CALL with a free entry (R83). -/
theorem exec_call_of_lt {s : State} (nnn : Addr12) (hsp : s.sp.toNat < 16) :
    exec (.call nnn) s =
      .next (((s.setStk (s.stk.set s.sp.toNat s.pc hsp)).setSp (s.sp + 1)).setPc (zextAddr nnn)) := by
  obtain ⟨_, heq⟩ := exec_call_of_no_fault (specFault_call_of_lt nnn hsp)
  exact heq

/-- A RET with entry `j` on top of the stack (R81). -/
theorem exec_ret_of_top {s : State} {j : Fin 16} (hj : s.sp.toNat = j.val + 1) :
    exec .ret s = .next ((s.setSp (s.sp - 1)).setPc (s.stk[j] + 2)) := by
  have hsp : s.sp ≠ 0 := fun h0 => by simp [h0] at hj
  have htop : (s.sp - 1).toNat = j.val := sub_one_toNat hj
  have heq := exec_ret_of_entry hsp (htop ▸ j.isLt)
  simpa only [htop, Fin.getElem_fin] using heq

/-! ## The statements -/

/-- Settles O19: the entry that the call wrote is the one on top when the return reads it. -/
theorem callThenReturnComesBack : Obligations.CallThenReturnComesBack := by
  intro nnn s t u hsp hcall hspu hstk
  cases (exec_call_of_lt nnn hsp).symm.trans hcall
  rw [State.setPc_sp, State.setSp_sp] at hspu
  have hentry : u.stk[s.sp.toNat] = s.pc := by
    simpa [Vector.getElem?_eq_getElem hsp] using hstk
  have htop : u.sp.toNat = s.sp.toNat + 1 := hspu ▸ add_one_toNat_of_lt hsp
  refine ⟨_, exec_ret_of_top (j := ⟨s.sp.toNat, hsp⟩) htop, ?_, ?_⟩
  · exact congrArg (· + 2) hentry
  · rw [State.setPc_sp, State.setSp_sp, hspu, BitVec.add_sub_cancel]

/-- Settles O14: the catch-all is the decoder's last row, and the rest is `advance`. -/
theorem noOpsOnlyAdvance : Obligations.NoOpsOnlyAdvance := by
  obtain ⟨-, -, hcatch⟩ := decoderFollowsTheOpcodeMap
  exact ⟨decodeWord_encode (i := .nop) rfl, fun w => (hcatch w).1,
    fun s => ⟨_, rfl, rfl, advance_frame s⟩, fun _ s => ⟨_, rfl, rfl, advance_frame s⟩⟩

/-- Settles O15: the immediate is zero-extended, and the sum with V0 does not wrap. -/
theorem jumpsSetPcAlone : Obligations.JumpsSetPcAlone :=
  ⟨fun nnn => decodeWord_encode (i := .jp nnn) rfl,
    fun nnn => decodeWord_encode (i := .jpV0 nnn) rfl,
    fun nnn s => ⟨_, rfl, zextAddr_toNat nnn, setPc_frame s _⟩,
    fun nnn s => ⟨_, rfl, zextAddr_add_zextByte_toNat nnn (s.getV 0), setPc_frame s _⟩⟩

/-- Settles O16: with a free entry the call does not fault, and a full stack is the fault of the
table of R161. -/
theorem callPushesItsOwnAddress : Obligations.CallPushesItsOwnAddress := by
  refine ⟨fun nnn => decodeWord_encode (i := .call nnn) rfl, fun nnn s => ⟨fun hsp => ?_, ?_⟩⟩
  · have hcall := exec_call_of_lt nnn hsp
    have hframe := exec_frame (specFault_call_of_lt nnn hsp) hcall
    refine ⟨_, hcall, fun j => ?_, add_one_toNat_of_lt hsp, zextAddr_toNat nnn,
      hframe.weaken (by simp [regsWritten]) (by simp [partsWritten]) (by simp [bytesStored])⟩
    simp only [State.setPc_stk, State.setSp_stk, State.setStk_stk, Fin.getElem_fin,
      Vector.getElem_set]
    exact if_congr eq_comm rfl rfl
  · exact fun hfull => exec_of_fault (i := .call nnn) (if_pos hfull)

/-- Settles O17: entry `j` is on top when SP is `j + 1`, and an empty stack is the fault of the
table of R161. -/
theorem retContinuesAfterTheCall : Obligations.RetContinuesAfterTheCall := by
  refine ⟨decodeWord_encode (i := .ret) rfl, fun s => ⟨fun j hj => ?_, ?_⟩⟩
  · have hsp : (s.sp - 1).toNat = j.val := sub_one_toNat hj
    exact ⟨_, exec_ret_of_top hj, hsp, rfl, (setSp_frame s _).setPc _⟩
  · exact fun hempty => exec_of_fault (i := .ret) (if_pos hempty)

end Sys2Proof.Machine

/-! PROOFS, family `41_skips.md`. The four register skips are `skipIf` with four tests, so what a
skip does is said once, for a test that decides between two conditions. -/

namespace Sys2Proof.Machine

/-! ## A conditional skip (R100 to R103) -/

/-- A skip goes 4 on when its test succeeds and 2 on when it fails, and changes PC alone. -/
theorem State.skipIf_spec (s : State) {cond : Bool} {taken untaken : Prop}
    (htaken : taken → cond = true) (huntaken : untaken → cond = false) :
    (taken → (s.skipIf cond).pc = s.pc + 4) ∧ (untaken → (s.skipIf cond).pc = s.pc + 2) ∧
      Frame [] [] [] s (s.skipIf cond) := by
  refine ⟨fun h => ?_, fun h => ?_, skipIf_frame s cond⟩
  · rw [htaken h, State.skipIf_pc, if_pos rfl]
  · rw [huntaken h, State.skipIf_pc, if_neg Bool.false_ne_true]

/-! ## The statements -/

/-- Settles O20: the tests `==` and `!=` against the immediate are equality of all 8 bits. -/
theorem skipsComparingAnImmediate : Obligations.SkipsComparingAnImmediate :=
  ⟨fun x kk => decodeWord_encode (i := .seImm x kk) rfl,
    fun x kk => decodeWord_encode (i := .sneImm x kk) rfl,
    fun _ _ s => ⟨_, rfl, s.skipIf_spec beq_iff_eq.2 beq_eq_false_iff_ne.2⟩,
    fun _ _ s => ⟨_, rfl, s.skipIf_spec bne_iff_ne.2 bne_eq_false_iff_eq.2⟩⟩

/-- Settles O21: the same with the second register in the immediate's place, x = y included. -/
theorem skipsComparingTwoRegisters : Obligations.SkipsComparingTwoRegisters :=
  ⟨fun x y => decodeWord_encode (i := .seReg x y) rfl,
    fun x y => decodeWord_encode (i := .sneReg x y) rfl,
    fun _ _ s => ⟨_, rfl, s.skipIf_spec beq_iff_eq.2 beq_eq_false_iff_ne.2⟩,
    fun _ _ s => ⟨_, rfl, s.skipIf_spec bne_iff_ne.2 bne_eq_false_iff_eq.2⟩⟩

end Sys2Proof.Machine

/-! PROOFS, family `42_alu.md`. Each ALU instruction writes one register, works bit by bit, or writes
a flag and a result; what each of the three does is said once, and the statements are read off from
that and from the arithmetic of bytes. -/

namespace Sys2Proof.Machine

/-! ## One register written (R110 to R115) -/

/-- Vx is written, PC advances, and nothing else changes. -/
theorem State.setV_advance_spec (s : State) (x : Reg) (b : Byte) :
    (s.setV x b).advance.getV x = b ∧ (s.setV x b).advance.pc = s.pc + 2 ∧
      Frame [x] [] [] s (s.setV x b).advance :=
  ⟨s.getV_setV_same x b, rfl, (setV_frame s x b).setPc _⟩

/-- A logic operation that acts on each bit by `f` writes to Vx the bits that `f` gives. -/
theorem State.logicOp_spec (s : State) (x y : Reg) {op : Byte → Byte → Byte}
    (f : Bool → Bool → Bool)
    (hop : ∀ a c b, (op a c).getLsbD b = f (a.getLsbD b) (c.getLsbD b)) :
    (∀ b, ((s.logicOp op x y).getV x).getLsbD b =
      f ((s.getV x).getLsbD b) ((s.getV y).getLsbD b)) ∧
      (s.logicOp op x y).pc = s.pc + 2 ∧ Frame [x] [] [] s (s.logicOp op x y) := by
  obtain ⟨hvx, hpc, hframe⟩ := s.setV_advance_spec x (op (s.getV x) (s.getV y))
  refine ⟨fun b => ?_, hpc, hframe⟩
  rw [State.logicOp, hvx, hop]

/-! ## A flag and a result written (R116 to R120, R122) -/

@[simp] theorem flagByte_toNat (f : Bool) : (flagByte f).toNat = f.toNat := by
  cases f <;> rfl

/-- The result stands in Vx even with x = F; otherwise the flag stands in VF. -/
theorem State.writeFlagged_spec (s : State) (x : Reg) (f : Bool) (b : Byte) :
    (s.writeFlagged x f b).getV x = b ∧
      (x ≠ 15 → (s.writeFlagged x f b).getV 15 = flagByte f) ∧
      (s.writeFlagged x f b).pc = s.pc + 2 ∧ Frame [x, 15] [] [] s (s.writeFlagged x f b) := by
  refine ⟨?_, fun hx => ?_, rfl,
    (writeFlagged_frame s x f b).weaken (List.Perm.swap x 15 []).subset (.refl _) (.refl _)⟩
  · rw [State.getV_writeFlagged, if_pos rfl]
  · exact s.getV_vf_writeFlagged f b (beq_eq_false_iff_ne.2 hx)

/-- The same for a flag that tests the operands: 1 when `raised` holds, 0 when `lowered` does. -/
theorem State.writeFlagged_test_spec (s : State) (x : Reg) {f : Bool} {b : Byte} {n : Nat}
    {raised lowered : Prop} (hb : b.toNat = n) (hraised : raised → f = true)
    (hlowered : lowered → f = false) :
    ((s.writeFlagged x f b).getV x).toNat = n ∧
      (x ≠ 15 → raised → (s.writeFlagged x f b).getV 15 = 1) ∧
      (x ≠ 15 → lowered → (s.writeFlagged x f b).getV 15 = 0) ∧
      (s.writeFlagged x f b).pc = s.pc + 2 ∧ Frame [x, 15] [] [] s (s.writeFlagged x f b) := by
  obtain ⟨hvx, hvf, hpc, hframe⟩ := s.writeFlagged_spec x f b
  refine ⟨by rw [hvx, hb], fun hx h => ?_, fun hx h => ?_, hpc, hframe⟩
  · rw [hvf hx, hraised h, flagByte, if_pos rfl]
  · rw [hvf hx, hlowered h, flagByte, if_neg Bool.false_ne_true]

/-- The same for a flag that is a bit shifted out, as a number. -/
theorem State.writeFlagged_bit_spec (s : State) (x : Reg) {f : Bool} {b : Byte} {n m : Nat}
    (hb : b.toNat = n) (hf : f.toNat = m) :
    ((s.writeFlagged x f b).getV x).toNat = n ∧
      (x ≠ 15 → ((s.writeFlagged x f b).getV 15).toNat = m) ∧
      (s.writeFlagged x f b).pc = s.pc + 2 ∧ Frame [x, 15] [] [] s (s.writeFlagged x f b) := by
  obtain ⟨hvx, hvf, hpc, hframe⟩ := s.writeFlagged_spec x f b
  exact ⟨by rw [hvx, hb], fun hx => by rw [hvf hx, flagByte_toNat, hf], hpc, hframe⟩

/-! ## The carry and the comparison (R116, R117, R119) -/

theorem carryFlag_of_lt {a b : Byte} (h : 255 < a.toNat + b.toNat) : carryFlag a b = true :=
  decide_eq_true h

theorem carryFlag_of_le {a b : Byte} (h : a.toNat + b.toNat ≤ 255) : carryFlag a b = false :=
  decide_eq_false (Nat.not_lt.2 h)

theorem greaterFlag_of_lt {a b : Byte} (h : b.toNat < a.toNat) : greaterFlag a b = true :=
  decide_eq_true h

theorem greaterFlag_of_le {a b : Byte} (h : a.toNat ≤ b.toNat) : greaterFlag a b = false :=
  decide_eq_false (Nat.not_lt.2 h)

/-! ## Bytes as numbers -/

/-- A difference of bytes, with 256 borrowed before it is reduced (R117, R119). -/
theorem sub_toNat (a b : Byte) : (a - b).toNat = (a.toNat + 256 - b.toNat) % 256 := by
  bv_omega

theorem shiftRight_one_toNat (a : Byte) : (a >>> 1).toNat = a.toNat / 2 := by
  rw [BitVec.toNat_ushiftRight, Nat.shiftRight_eq_div_pow, Nat.pow_one]

theorem shiftLeft_one_toNat (a : Byte) : (a <<< 1).toNat = a.toNat * 2 % 256 := by
  rw [BitVec.toNat_shiftLeft, Nat.shiftLeft_eq, Nat.pow_one]

theorem lowBit_toNat (a : Byte) : (lowBit a).toNat = a.toNat % 2 := by
  rw [lowBit, ← BitVec.testBit_toNat, Nat.toNat_testBit, Nat.pow_zero, Nat.div_one]

theorem highBit_toNat (a : Byte) : (highBit a).toNat = a.toNat / 128 := by
  have hlt := a.isLt
  rw [highBit, ← BitVec.testBit_toNat, Nat.toNat_testBit]
  omega

/-! ## The statements -/

/-- Settles O22: an immediate or the other register is what is written to Vx. -/
theorem loadsAndCopiesWriteVxAlone : Obligations.LoadsAndCopiesWriteVxAlone :=
  ⟨fun x kk => decodeWord_encode (i := .ldImm x kk) rfl,
    fun x y => decodeWord_encode (i := .ldReg x y) rfl,
    fun x kk s => ⟨_, rfl, s.setV_advance_spec x kk⟩,
    fun x y s => ⟨_, rfl, s.setV_advance_spec x (s.getV y)⟩⟩

/-- Settles O23: addition of bytes is addition modulo 256. -/
theorem addImmediateWrapsWithoutAFlag : Obligations.AddImmediateWrapsWithoutAFlag := by
  refine ⟨fun x kk => decodeWord_encode (i := .addImm x kk) rfl, fun x kk s => ?_⟩
  obtain ⟨hvx, hpc, hframe⟩ := s.setV_advance_spec x (s.getV x + kk)
  exact ⟨_, rfl, by rw [hvx, BitVec.toNat_add], hpc, hframe⟩

/-- Settles O24: each operation of bytes acts on every bit by itself. -/
theorem logicOperationsAreBitwise : Obligations.LogicOperationsAreBitwise :=
  ⟨fun x y => decodeWord_encode (i := .orReg x y) rfl,
    fun x y => decodeWord_encode (i := .andReg x y) rfl,
    fun x y => decodeWord_encode (i := .xorReg x y) rfl,
    fun x y s => ⟨_, rfl, s.logicOp_spec x y or fun _ _ _ => BitVec.getLsbD_or⟩,
    fun x y s => ⟨_, rfl, s.logicOp_spec x y and fun _ _ _ => BitVec.getLsbD_and⟩,
    fun x y s => ⟨_, rfl, s.logicOp_spec x y xor fun _ _ _ => BitVec.getLsbD_xor⟩⟩

/-- Settles O25: the carry flag is the test whether the unreduced sum exceeds 255. -/
theorem addRegistersWritesSumAndCarry : Obligations.AddRegistersWritesSumAndCarry :=
  ⟨fun x y => decodeWord_encode (i := .addReg x y) rfl,
    fun x _ s => ⟨_, rfl, s.writeFlagged_test_spec x (BitVec.toNat_add _ _)
      carryFlag_of_lt carryFlag_of_le⟩⟩

/-- Settles O26: SUB takes Vy from Vx and SUBN takes Vx from Vy. -/
theorem subtractionsWriteDifferenceAndGreater :
    Obligations.SubtractionsWriteDifferenceAndGreater :=
  ⟨fun x y => decodeWord_encode (i := .subReg x y) rfl,
    fun x y => decodeWord_encode (i := .subnReg x y) rfl,
    fun x _ s => ⟨_, rfl, s.writeFlagged_test_spec x (sub_toNat _ _)
      greaterFlag_of_lt greaterFlag_of_le⟩,
    fun x _ s => ⟨_, rfl, s.writeFlagged_test_spec x (sub_toNat _ _)
      greaterFlag_of_lt greaterFlag_of_le⟩⟩

/-- Settles O27: the result and the bit shifted out are the quotient and the remainder by 2 (SHR),
and the double modulo 256 and the quotient by 128 (SHL). -/
theorem shiftsMoveVxByOneBit : Obligations.ShiftsMoveVxByOneBit :=
  ⟨fun x y => decodeWord_encode (i := .shr x y) rfl,
    fun x y => decodeWord_encode (i := .shl x y) rfl,
    fun x _ s => ⟨_, rfl, s.writeFlagged_bit_spec x (shiftRight_one_toNat _) (lowBit_toNat _)⟩,
    fun x _ s => ⟨_, rfl, s.writeFlagged_bit_spec x (shiftLeft_one_toNat _) (highBit_toNat _)⟩⟩

end Sys2Proof.Machine

/-! PROOFS, family `43_index_memory.md`. The store and the load of V0..Vx are read off from what the
earlier families say of the memory after a store and of the registers after a load; the round trip
then follows from the two statements alone. -/

namespace Sys2Proof.Machine

/-! ## The span of a data access (R45, R46, R134, R135) -/

/-- Where `afterStore` tells what memory reads as, the bytes from I upward are the stored ones. -/
theorem State.readByte_dataAddr_of_afterStore {s t : State} {bytes : List Byte}
    (h : ∀ a, t.readByte a = s.afterStore bytes a) (j : Nat) (hj : j < bytes.length) :
    t.readByte (s.dataAddr j) = bytes[j] :=
  (h _).trans (s.afterStore_inside bytes j hj)

theorem State.dataAddr_mem_dataAddrs (s : State) {j len : Nat} (hj : j < len) :
    s.dataAddr j ∈ s.dataAddrs len :=
  List.mem_map_of_mem (List.mem_range.2 hj)

theorem lt_regCount {j x : Reg} (h : j ≤ x) : j.val < regCount x := Nat.lt_succ_of_le h

/-- I past the registers V0..Vx (R134, R135). -/
theorem add_regCount_toNat (w : Word) (x : Reg) :
    (w + BitVec.ofNat 16 (regCount x)).toNat = (w.toNat + x.val + 1) % 65536 := by
  rw [BitVec.toNat_add, BitVec.toNat_ofNat, regCount, Nat.add_mod_mod, Nat.add_assoc]

@[simp] theorem State.storeRegs_i (s : State) (a n : Nat) : (s.storeRegs a n).i = s.i := by
  rw [State.storeRegs_eq, State.setMem_i]

@[simp] theorem State.loadRegs_i (s : State) (a n : Nat) : (s.loadRegs a n).i = s.i := by
  rw [State.loadRegs_eq]

/-! ## Transfers of registers -/

/-- Settles O33: each stored byte is what `afterStore` gives at its address, and a span that ends
outside memory is the fault of the table of R161. -/
theorem storeRegistersStoresV0ToVx : Obligations.StoreRegistersStoresV0ToVx := by
  refine ⟨fun x => decodeWord_encode (i := .stRegs x) rfl, fun x s => ⟨fun hi => ?_, ?_⟩⟩
  · have hf : specFault (.stRegs x) s = none := if_neg (Nat.not_lt.2 hi)
    have hexec := exec_stRegs_of_no_fault hf
    refine ⟨_, hexec, fun hwf j hj => ?_, ?_, by simp, exec_frame hf hexec⟩
    · have hread := readByte_of_exec_stRegs hwf hi hexec
      have hlen : j.val < (storedRegs s x).length := by
        rw [storedRegs_length]
        exact lt_regCount hj
      rw [State.readByte_dataAddr_of_afterStore hread j.val hlen, storedRegs_getElem]
    · rw [State.advance_i, State.bumpI_i, State.storeRegs_i, add_regCount_toNat]
  · exact fun hoob => exec_of_fault (i := .stRegs x) (if_pos hoob)

/-- Settles O34: each register up to Vx is loaded from its address, and a span that ends outside
memory is the fault of the table of R161. -/
theorem loadRegistersLoadsV0ToVx : Obligations.LoadRegistersLoadsV0ToVx := by
  refine ⟨fun x => decodeWord_encode (i := .ldRegs x) rfl, fun x s => ⟨fun hi => ?_, ?_⟩⟩
  · have hf : specFault (.ldRegs x) s = none := if_neg (Nat.not_lt.2 hi)
    have hexec := exec_ldRegs_of_no_fault hf
    refine ⟨_, hexec, fun j hj => ?_, ?_, by simp, exec_frame hf hexec⟩
    · exact (s.getV_loadRegs (s.dataAddr 0) (regCount x) j).trans (if_pos (lt_regCount hj))
    · rw [State.advance_i, State.bumpI_i, State.loadRegs_i, add_regCount_toNat]
  · exact fun hoob => exec_of_fault (i := .ldRegs x) (if_pos hoob)

/-- Settles O35: the load reads the addresses that the store wrote, since both start from the same
I, and inside memory I does not wrap. -/
theorem storeThenLoadRestoresRegisters : Obligations.StoreThenLoadRestoresRegisters := by
  intro x s t u hwf hi ht hmem hui
  obtain ⟨-, hstore⟩ := storeRegistersStoresV0ToVx
  obtain ⟨-, hload⟩ := loadRegistersLoadsV0ToVx
  obtain ⟨t', ht', hstored, hti, -⟩ := (hstore x s).1 hi
  cases ht'.symm.trans ht
  obtain ⟨w, hw, hloaded, hwi, -⟩ := (hload x u).1 (hui ▸ hi)
  rw [hui] at hwi
  refine ⟨w, hw, fun j hj => ?_, BitVec.eq_of_toNat_eq (hwi.trans hti.symm), ?_⟩
  · have haddr : u.dataAddr j.val = s.dataAddr j.val := congrArg (·.toNat + j.val) hui
    calc w.getV j = u.readByte (u.dataAddr j.val) := hloaded j hj
      _ = u.readByte (s.dataAddr j.val) := by rw [haddr]
      _ = t.readByte (s.dataAddr j.val) := hmem _ (s.dataAddr_mem_dataAddrs (lt_regCount hj))
      _ = s.getV j := hstored hwf j hj
  · omega

/-! ## I written (R130 to R132) -/

/-- I is written, PC advances, and nothing else changes. -/
theorem State.setI_advance_spec (s : State) {w : Word} {n : Nat} (hw : w.toNat = n) :
    (s.setI w).advance.i.toNat = n ∧ (s.setI w).advance.pc = s.pc + 2 ∧
      Frame [] [.i] [] s (s.setI w).advance :=
  ⟨hw, rfl, (setI_frame s w).setPc _⟩

theorem add_zextByte_toNat (w : Word) (b : Byte) :
    (w + zextByte b).toNat = (w.toNat + b.toNat) % 65536 := by
  rw [BitVec.toNat_add, zextByte_toNat]

/-- Five times a byte does not wrap (R132). -/
theorem glyphAddr_toNat (b : Byte) : (glyphAddr b).toNat = b.toNat * 5 := by
  have hlt : b.toNat * 5 < 2 ^ 16 := by
    have := b.isLt
    omega
  rw [glyphAddr, BitVec.toNat_mul, zextByte_toNat]
  exact Nat.mod_eq_of_lt hlt

/-- Settles O31: the immediate and the product do not wrap, and the sum of words is the sum modulo
65536. -/
theorem indexRegisterInstructions : Obligations.IndexRegisterInstructions :=
  ⟨fun nnn => decodeWord_encode (i := .ldI nnn) rfl,
    fun x => decodeWord_encode (i := .addI x) rfl,
    fun x => decodeWord_encode (i := .ldF x) rfl,
    fun nnn s => ⟨_, rfl, s.setI_advance_spec (zextAddr_toNat nnn)⟩,
    fun x s => ⟨_, rfl, s.setI_advance_spec (add_zextByte_toNat s.i (s.getV x))⟩,
    fun x s => ⟨_, rfl, s.setI_advance_spec (glyphAddr_toNat (s.getV x))⟩⟩

/-! ## Decimal digits (R133) -/

/-- A number that a byte bounds is kept as a byte. -/
theorem ofNat_toNat_of_le {n : Nat} {b : Byte} (h : n ≤ b.toNat) : (BitVec.ofNat 8 n).toNat = n :=
  Nat.mod_eq_of_lt (Nat.lt_of_le_of_lt h b.isLt)

/-- Settles O32: each digit is what `afterStore` gives at its address and is at most the byte it is
taken from, and a span that ends outside memory is the fault of the table of R161. -/
theorem bcdStoresThreeDigits : Obligations.BcdStoresThreeDigits := by
  refine ⟨fun x => decodeWord_encode (i := .ldB x) rfl, fun x s => ⟨fun hi => ?_, ?_⟩⟩
  · have hf : specFault (.ldB x) s = none := if_neg (Nat.not_lt.2 hi)
    have hexec := exec_ldB_of_no_fault hf
    refine ⟨_, hexec, fun hwf => ?_, by simp, exec_frame hf hexec⟩
    have hread := State.readByte_dataAddr_of_afterStore (readByte_of_exec_ldB hwf hi hexec)
    rw [hread 0 (by simp), hread 1 (by simp), hread 2 (by simp)]
    exact ⟨ofNat_toNat_of_le (Nat.div_le_self _ 100),
      ofNat_toNat_of_le ((Nat.mod_le _ 10).trans (Nat.div_le_self _ 10)),
      ofNat_toNat_of_le (Nat.mod_le _ 10)⟩
  · exact fun hoob => exec_of_fault (i := .ldB x) (if_pos hoob)

end Sys2Proof.Machine

/-! PROOFS, family `44_display.md`. First the cells of a sprite are shown to be distinct (R143); so a
draw toggles each of them once, and what one draw and two draws do follows cell by cell. -/

namespace Sys2Proof.Machine

/-! ## The cells of a sprite are distinct (R143) -/

/-- Fewer than 32 sprite rows apart, two rows of a sprite lie on different framebuffer rows. -/
theorem pixelRow_ne_of_lt (y0 : Byte) {r r' : Nat} (hlt : r < r') (hspan : r' < r + 32) :
    pixelRow y0 r ≠ pixelRow y0 r' := by
  intro h
  have := Fin.val_eq_of_eq h
  simp only [pixelRow] at this
  omega

/-- The 8 columns of a sprite lie on different framebuffer columns. -/
theorem pixelCol_inj (x0 : Byte) {c c' : Nat} (hc : c < 8) (hc' : c' < 8)
    (h : pixelCol x0 c = pixelCol x0 c') : c = c' := by
  have := Fin.val_eq_of_eq h
  simp only [pixelCol] at this
  omega

theorem rowCells_nodup (x0 y0 : Byte) (r : Nat) (b : Byte) : (rowCells x0 y0 r b).Nodup := by
  refine (List.nodup_range.filter _).map_on fun c hc c' hc' h => ?_
  have hlt {k : Nat} (hk : k ∈ (List.range 8).filter (spriteBit b)) : k < 8 :=
    List.mem_range.1 (List.mem_of_mem_filter hk)
  exact pixelCol_inj x0 (hlt hc) (hlt hc') (congrArg Prod.snd h)

/-- The cells of a sprite are distinct up to the height of the framebuffer: within a row by their
columns, and a row from the rows below it by their rows. -/
theorem spriteCells_nodup (x0 y0 : Byte) (r : Nat) (bytes : List Byte) (hlen : bytes.length ≤ 32) :
    (spriteCells x0 y0 r bytes).Nodup := by
  induction bytes generalizing r with
  | nil => exact List.nodup_nil
  | cons b bytes ih =>
    rw [List.length_cons] at hlen
    refine (rowCells_nodup x0 y0 r b).append (ih (r + 1) (by omega)) fun p hrow hbelow => ?_
    obtain ⟨c, -, -, rfl⟩ := (mem_rowCells x0 y0 b r p).1 hrow
    obtain ⟨j, c', hj, -, -, heq⟩ := (mem_spriteCells x0 y0 bytes (r + 1) _).1 hbelow
    exact pixelRow_ne_of_lt y0 (by omega) (by omega) (congrArg Prod.fst heq)

/-- Settles O41: see `spriteCells_nodup`; 15 rows are fewer than 32. -/
theorem spritePixelsFallOnDistinctCells : Obligations.SpritePixelsFallOnDistinctCells :=
  fun x0 y0 bytes hlen => spriteCells_nodup x0 y0 0 bytes (by omega)

theorem State.spriteOf_nodup (s : State) (x y : Reg) (n : Fin 16) :
    (s.spriteOf x y n.val).Nodup :=
  spriteCells_nodup _ _ 0 _ (by rw [State.readBytes_length]; omega)

/-- The sprite of a draw is the cells that its set bits fall on (R142). -/
theorem State.mem_spriteOf_iff (s : State) (x y : Reg) (n : Nat) (row : Fin 32) (col : Fin 64) :
    (row, col) ∈ s.spriteOf x y n ↔ spriteCovers s x y n row col := by
  rw [State.spriteOf, mem_spriteCells]
  simp only [State.readBytes_length, State.readBytes_getElem, Prod.mk.injEq, Nat.zero_add,
    pixelRow, pixelCol, Fin.ext_iff]
  constructor
  · rintro ⟨r, c, hr, hc, hbit, hrow, hcol⟩
    exact ⟨r, c, hr, hc, hrow, hcol, hbit⟩
  · rintro ⟨r, c, hr, hc, hrow, hcol, hbit⟩
    exact ⟨r, c, hr, hc, hbit, hrow, hcol⟩

/-! ## One draw (R141) -/

theorem specFault_drw_of_inRange {n : Fin 16} {s : State}
    (h : n.val = 0 ∨ s.i.toNat + n.val - 1 ≤ 0xFFF) (x y : Reg) :
    specFault (.drw x y n) s = none :=
  if_neg (by omega)

theorem flagByte_eq_one_iff (f : Bool) : flagByte f = 1 ↔ f = true := by
  cases f <;> decide

theorem State.getV_vf_drawOnto (s : State) (cells : List (Fin 32 × Fin 64)) :
    (s.drawOnto cells).getV 15 = flagByte (drawCells s.fb cells).2 :=
  State.getV_setV_same _ vf _

/-- A draw toggles the cells that its sprite covers. -/
theorem State.cellAt_drawOnto_of_covers {s : State} {x y : Reg} {n : Fin 16} {row : Fin 32}
    {col : Fin 64} (h : spriteCovers s x y n.val row col) :
    cellAt (s.drawOnto (s.spriteOf x y n.val)).fb row col = !cellAt s.fb row col :=
  (cellAt_drawCells _ (s.spriteOf_nodup x y n) s.fb row col).trans
    (if_pos ((s.mem_spriteOf_iff x y n.val row col).2 h))

/-- A draw toggles no other cell. -/
theorem State.cellAt_drawOnto_of_not_covers {s : State} {x y : Reg} {n : Fin 16} {row : Fin 32}
    {col : Fin 64} (h : ¬ spriteCovers s x y n.val row col) :
    cellAt (s.drawOnto (s.spriteOf x y n.val)).fb row col = cellAt s.fb row col :=
  (cellAt_drawCells _ (s.spriteOf_nodup x y n) s.fb row col).trans
    (if_neg fun hmem => h ((s.mem_spriteOf_iff x y n.val row col).1 hmem))

/-- A draw finds a collision exactly when its sprite covers a cell that is set. -/
theorem State.drawCells_spriteOf_collided (s : State) (x y : Reg) (n : Fin 16) :
    (drawCells s.fb (s.spriteOf x y n.val)).2 = true ↔
      ∃ row col, spriteCovers s x y n.val row col ∧ cellAt s.fb row col = true := by
  simp only [drawCells_collided _ (s.spriteOf_nodup x y n), Prod.exists, State.mem_spriteOf_iff]

/-- Settles O39: inside memory each clause speaks of one cell or of the collision flag, and a sprite
that ends outside memory is the fault of the table of R161. -/
theorem drawTogglesTheSpriteAndReportsCollision :
    Obligations.DrawTogglesTheSpriteAndReportsCollision := by
  refine ⟨fun x y n => decodeWord_encode (i := .drw x y n) rfl,
    fun x y n s => ⟨fun hi => ?_, fun hn hoob => ?_⟩⟩
  · have hf := specFault_drw_of_inRange hi x y
    have hexec := exec_drw_of_no_fault hf
    have hvf := s.getV_vf_drawOnto (s.spriteOf x y n.val)
    refine ⟨_, hexec, fun _ _ => State.cellAt_drawOnto_of_covers,
      fun _ _ => State.cellAt_drawOnto_of_not_covers, fun hset => ?_, fun hclear => ?_, rfl,
      exec_frame hf hexec⟩
    · exact hvf.trans ((flagByte_eq_one_iff _).2 ((s.drawCells_spriteOf_collided x y n).2 hset))
    · have hnone : (drawCells s.fb (s.spriteOf x y n.val)).2 = false := by
        rw [← Bool.not_eq_true, s.drawCells_spriteOf_collided]
        rintro ⟨row, col, hcov, hset⟩
        exact Bool.false_ne_true ((hclear row col hcov).symm.trans hset)
      exact hvf.trans (congrArg flagByte hnone)
  · exact exec_of_fault (i := .drw x y n) (if_pos ⟨hn, hoob⟩)

/-! ## Two draws (R141, R143) -/

/-- Toggling distinct cells twice changes nothing. -/
theorem drawCells_drawCells_fst {cells : List (Fin 32 × Fin 64)} (hd : cells.Nodup)
    (fb : Framebuffer) : (drawCells (drawCells fb cells).1 cells).1 = fb := by
  refine framebuffer_ext _ _ fun row col => ?_
  rw [cellAt_drawCells _ hd, cellAt_drawCells _ hd]
  split
  · exact Bool.not_not _
  · rfl

/-- The second time a collision is a cell that was clear before the first. -/
theorem drawCells_drawCells_collided {cells : List (Fin 32 × Fin 64)} (hd : cells.Nodup)
    (fb : Framebuffer) :
    (drawCells (drawCells fb cells).1 cells).2 = true ↔
      ∃ p ∈ cells, cellAt fb p.1 p.2 = false := by
  rw [drawCells_collided _ hd]
  refine exists_congr fun p => and_congr_right fun hp => ?_
  rw [cellAt_drawCells _ hd, if_pos hp, Bool.not_eq_true']

theorem State.readBytes_congr {s t : State} (h : ∀ a, t.readByte a = s.readByte a) (a n : Nat) :
    t.readBytes a n = s.readBytes a n := by
  induction n generalizing a with
  | zero => rfl
  | succ n ih => rw [State.readBytes, State.readBytes, h, ih]

/-- The sprite of a draw depends on Vx, Vy, I and memory alone. -/
theorem Frame.spriteOf_eq {regs : List Reg} {parts : List Part} {s t : State}
    (h : Frame regs parts [] s t) {x y : Reg} (hx : x ∉ regs) (hy : y ∉ regs) (hi : .i ∉ parts)
    (n : Nat) : t.spriteOf x y n = s.spriteOf x y n := by
  have hti : t.i = s.i := h.parts_same .i hi
  have hmem := State.readBytes_congr fun a => h.mem_same a List.not_mem_nil
  rw [State.spriteOf, State.spriteOf, h.regs_same x hx, h.regs_same y hy, hmem, State.dataAddr,
    State.dataAddr, hti]

/-- Settles O40: the first draw leaves Vx, Vy, I and memory, so that the second toggles the same
cells. -/
theorem drawingTwiceRestoresTheFramebuffer : Obligations.DrawingTwiceRestoresTheFramebuffer := by
  intro x y n s t u hx hy hi ht hu
  have hf := specFault_drw_of_inRange hi x y
  have hframe : Frame [15] [.fb] [] s t := exec_frame hf ht
  have hti : t.i = s.i := hframe.parts_same .i (by decide)
  have hsprite : t.spriteOf x y n.val = s.spriteOf x y n.val :=
    hframe.spriteOf_eq (mt List.mem_singleton.1 hx) (mt List.mem_singleton.1 hy) (by decide) _
  have hexec := exec_drw_of_no_fault (specFault_drw_of_inRange (hti ▸ hi) x y)
  rw [hsprite] at hexec
  cases hexec.symm.trans hu
  have hd := s.spriteOf_nodup x y n
  have htfb : t.fb = (drawCells s.fb (s.spriteOf x y n.val)).1 := by
    cases (exec_drw_of_no_fault hf).symm.trans ht
    rfl
  refine ⟨?_, ?_⟩
  · calc (drawCells t.fb (s.spriteOf x y n.val)).1
      _ = (drawCells (drawCells s.fb (s.spriteOf x y n.val)).1 (s.spriteOf x y n.val)).1 := by
        rw [htfb]
      _ = s.fb := drawCells_drawCells_fst hd s.fb
  · rw [State.advance_getV, State.getV_vf_drawOnto, flagByte_eq_one_iff, htfb,
      drawCells_drawCells_collided hd]
    simp only [Prod.exists, State.mem_spriteOf_iff]

/-! ## The screen cleared (R140) -/

/-- Settles O38: the blank framebuffer is written, and nothing else but PC. -/
theorem clearBlanksEveryCell : Obligations.ClearBlanksEveryCell :=
  ⟨decodeWord_encode (i := .cls) rfl,
    fun s => ⟨_, rfl, cellAt_blank, rfl, (setFb_frame s blankFramebuffer).setPc _⟩⟩

end Sys2Proof.Machine

/-! PROOFS, family `45_input_timers.md`. What a key skip does is said once for both levels, and what
a press and a release do once for every key; the statements are read off from these and from the
frames of the operations. -/

namespace Sys2Proof.Machine

/-! ## Key skips (R150, R151) -/

/-- With the code of key `k` in Vx, a key skip tests that key's level. -/
theorem State.skipOnKey_of_code {s : State} {x : Reg} {k : Key} (level : Bool)
    (hk : (s.getV x).toNat = k.val) : s.skipOnKey x level = s.skipIf (s.key[k] == level) := by
  rcases s.skipOnKey_cases x level with ⟨hlt, heq⟩ | ⟨hge, -⟩
  · simpa only [hk, Fin.getElem_fin] using heq
  · exact absurd (hk ▸ k.isLt) (Nat.not_lt.2 hge)

/-- Such a skip goes 4 on at the level it tests for and 2 on at the other, and changes PC alone. -/
theorem State.skipOnKey_spec (s : State) {x : Reg} {k : Key} (level : Bool)
    (hk : (s.getV x).toNat = k.val) :
    (s.key[k] = level → (s.skipOnKey x level).pc = s.pc + 4) ∧
      (s.key[k] = !level → (s.skipOnKey x level).pc = s.pc + 2) ∧
      Frame [] [] [] s (s.skipOnKey x level) := by
  rw [State.skipOnKey_of_code level hk]
  exact s.skipIf_spec beq_iff_eq.2 fun h => by rw [h, Bool.not_beq_self]

/-! ## Key events (R152, R171, R172) -/

theorem setKeys_frame (s : State) (keys : Vector Bool 16) :
    Frame [] [.key] [] s (s.setKeys keys) :=
  .of_parts rfl rfl fun p hp => by cases p <;> simp_all [Part.same]

theorem setMode_frame (s : State) (m : Mode) : Frame [] [.mode] [] s (s.setMode m) :=
  .of_parts rfl rfl fun p hp => by cases p <;> simp_all [Part.same]

/-- The end of a key wait changes the register WAITX names, MODE and PC alone. -/
theorem completeWait_frame (s : State) (k : Key) :
    Frame [s.waitx] [.mode] [] s (s.completeWait k) :=
  ((setV_frame s s.waitx _).setPc _).trans (setMode_frame _ .run)

/-- The register that WAITX names takes the key's code, which fits a byte. -/
theorem State.getV_completeWait (s : State) (k : Key) :
    ((s.completeWait k).getV s.waitx).toNat = k.val := by
  have hcode : (s.completeWait k).getV s.waitx = BitVec.ofNat 8 k.val :=
    s.getV_setV_same s.waitx _
  rw [hcode]
  exact Nat.mod_eq_of_lt (k.isLt.trans (by decide))

/-- A release sets the key's level and does nothing else, in every MODE. -/
theorem State.keyEvent_release (s : State) (k : Key) :
    s.keyEvent k false = s.setKeys (s.key.set k false) := by
  rcases s.keyEvent_cases k false with ⟨hpressed, -⟩ | ⟨-, heq⟩
  · cases hpressed
  · exact heq

/-- A press during a key wait sets the key's level and ends the wait. -/
theorem State.keyEvent_press_of_wait {s : State} (k : Key) (hm : s.mode = .waitKey) :
    s.keyEvent k true = (s.setKeys (s.key.set k true)).completeWait k := by
  rcases s.keyEvent_cases k true with ⟨-, -, heq⟩ | ⟨hnot, -⟩
  · exact heq
  · exact absurd ⟨rfl, hm⟩ hnot

/-- The key of an event takes the event's level. -/
theorem State.keyEvent_key_same (s : State) (k : Key) (pressed : Bool) :
    (s.keyEvent k pressed).key[k] = pressed := by
  have hkeys : (s.keyEvent k pressed).key = s.key.set k pressed := by
    rcases s.keyEvent_cases k pressed with ⟨-, -, heq⟩ | ⟨-, heq⟩ <;> rw [heq] <;> rfl
  rw [hkeys]
  exact Vector.getElem_set_self k.isLt

/-- A release does not end a key wait: PC stays, and only the keys change. -/
theorem State.keyEvent_release_spec (s : State) (k : Key) :
    (s.keyEvent k false).pc = s.pc ∧ Frame [] [.key] [] s (s.keyEvent k false) := by
  rw [s.keyEvent_release]
  exact ⟨rfl, setKeys_frame s _⟩

/-- A press ends a key wait: the register WAITX names takes the key's code, PC advances and the core
runs. -/
theorem State.keyEvent_press_spec {s : State} (k : Key) (hm : s.mode = .waitKey) :
    ((s.keyEvent k true).getV s.waitx).toNat = k.val ∧ (s.keyEvent k true).pc = s.pc + 2 ∧
      (s.keyEvent k true).mode = .run ∧ Frame [s.waitx] [.key, .mode] [] s (s.keyEvent k true) := by
  rw [State.keyEvent_press_of_wait k hm]
  exact ⟨State.getV_completeWait (s.setKeys _) k, rfl, rfl,
    (setKeys_frame s _).trans (completeWait_frame (s.setKeys (s.key.set k true)) k)⟩

/-! ## The statements -/

/-- Settles O42: the two skips test for the two levels, and a code above 0xF is the fault of the
table of R161. -/
theorem keySkipsTestTheKeyLevel : Obligations.KeySkipsTestTheKeyLevel :=
  ⟨fun x => decodeWord_encode (i := .skp x) rfl,
    fun x => decodeWord_encode (i := .sknp x) rfl,
    fun _ _ s hk => ⟨_, rfl, s.skipOnKey_spec true hk⟩,
    fun _ _ s hk => ⟨_, rfl, s.skipOnKey_spec false hk⟩,
    fun x _ hcode => ⟨exec_of_fault (i := .skp x) (if_pos hcode),
      exec_of_fault (i := .sknp x) (if_pos hcode)⟩⟩

/-- Settles O43: the state that waits holds a Step, and WAITX names Vx for the press that ends the
wait. -/
theorem keyWaitLastsUntilAPress : Obligations.KeyWaitLastsUntilAPress := by
  refine ⟨fun x => decodeWord_encode (i := .ldVxK x) rfl, fun x s => ⟨_, rfl, rfl, rfl, rfl, ?_,
    State.coreStep_held ((s.setWaitx x).setMode .waitKey) nofun, fun k => ?_, fun k => ?_⟩⟩
  · exact (enterWait_frame s x).weaken (.refl _) (List.Perm.swap _ _ []).subset (.refl _)
  · exact ⟨_, rfl, State.keyEvent_key_same _ k false, State.keyEvent_release_spec _ k⟩
  · exact ⟨_, rfl, State.keyEvent_key_same _ k true, State.keyEvent_press_spec k rfl⟩

/-- Settles O44: a timer is copied to Vx, or Vx to a timer. -/
theorem timerInstructionsMoveOneByte : Obligations.TimerInstructionsMoveOneByte :=
  ⟨fun x => decodeWord_encode (i := .ldVxDt x) rfl,
    fun x => decodeWord_encode (i := .ldDtVx x) rfl,
    fun x => decodeWord_encode (i := .ldStVx x) rfl,
    fun x s => ⟨_, rfl, s.setV_advance_spec x s.dt⟩,
    fun x s => ⟨_, rfl, rfl, rfl, (setDt_frame s (s.getV x)).setPc _⟩,
    fun x s => ⟨_, rfl, rfl, rfl, (setSt_frame s (s.getV x)).setPc _⟩⟩

end Sys2Proof.Machine

/-! PROOFS, family `60_exceptions.md`. What an instruction raises is `exec_of_fault` and
`exec_mode_cases`; the fault of the fetch is said here. A Tick is `countDown` on each timer, and a
key event sets one key whether or not it ends a key wait. -/

namespace Sys2Proof.Machine

/-! ## Faults (R161, R164) -/

/-- A running core whose PC cannot be fetched from takes FETCH_OOB, which changes the latch, MODE
and the boot order alone. -/
theorem State.fetchFault_spec {s : State} (hm : s.mode = .run) (hpc : 0xFFE < s.pc.toNat) :
    ∃ t, s.apply .step = .next t ∧ t.mode = .fault ∧ t.fcause = .fetchOob ∧ t.finfo = s.pc ∧
      t.pc = s.pc ∧ Frame [] [.mode, .fcause, .finfo, .stage] [] s t :=
  ⟨_, State.coreStep_outOfRange hm hpc, rfl, rfl, rfl, rfl,
    ((setStage_frame s .running).trans (raiseFault_frame _ .fetchOob s.pc)).weaken
      (.refl _) (by simp) (.refl _)⟩

/-- An instruction to which R161 gives no fault leaves the latch, and MODE unless it enters the key
wait. -/
theorem exec_latch_of_no_fault {i : Instr} {s t : State} (hf : specFault i s = none)
    (h : exec i s = .next t) :
    t.fcause = s.fcause ∧ t.finfo = s.finfo ∧ (t.mode = s.mode ∨ t.mode = .waitKey) := by
  rcases exec_mode_cases h with ⟨c, w, hfault, -⟩ | ⟨x, -, rfl⟩ | ⟨-, hmode, -, hcause, hinfo⟩
  · cases hf.symm.trans hfault
  · exact ⟨rfl, rfl, .inr rfl⟩
  · exact ⟨hcause, hinfo, .inl hmode⟩

/-- Codes 6 and 7 are never produced (R161). -/
theorem FaultCause.code_ne_six_seven (c : FaultCause) : c.code ≠ 6 ∧ c.code ≠ 7 := by
  cases c <;> decide

/-! ## Ticks (R168) -/

/-- A Tick changes the two timers alone. -/
theorem tick_frame (s : State) : Frame [] [.dt, .st] [] s s.tick :=
  (setDt_frame s _).trans (setSt_frame _ _)

theorem countDown_zero : countDown 0 = 0 := rfl

theorem countDown_toNat_add_one {t : Byte} (h : t ≠ 0) : (countDown t).toNat + 1 = t.toNat := by
  rw [countDown, if_neg h]
  bv_omega

theorem countDown_toNat (t : Byte) : (countDown t).toNat = t.toNat - 1 := by
  by_cases h : t = 0
  · subst h
    rfl
  · exact Nat.eq_sub_of_add_eq (countDown_toNat_add_one h)

/-- Counting down `k` times stops at 0, by the truncated subtraction of natural numbers. -/
theorem countDown_iterate_toNat (k : Nat) (t : Byte) :
    (countDown^[k] t).toNat = t.toNat - k := by
  induction k with
  | zero => rfl
  | succ k ih => rw [Function.iterate_succ_apply', countDown_toNat, ih, Nat.sub_sub]

/-- `k` Ticks count each timer down `k` times, whatever the rest of the state. -/
theorem State.tick_iterate_timers (k : Nat) (s : State) :
    (State.tick^[k] s).dt = countDown^[k] s.dt ∧ (State.tick^[k] s).st = countDown^[k] s.st := by
  have hdt : Function.Semiconj State.dt State.tick countDown := State.tick_dt
  have hst : Function.Semiconj State.st State.tick countDown := State.tick_st
  exact ⟨hdt.iterate_right k s, hst.iterate_right k s⟩

/-! ## Key events (R171, R172) -/

/-- A key event writes the keys in the same way whether or not it ends a wait. -/
theorem State.keyEvent_keys (s : State) (k : Key) (pressed : Bool) :
    (s.keyEvent k pressed).key = s.key.set k pressed := by
  rcases s.keyEvent_cases k pressed with ⟨-, -, heq⟩ | ⟨-, heq⟩ <;> rw [heq] <;> rfl

/-- A key event sets its key's level and leaves the other keys. -/
theorem State.keyEvent_key (s : State) (k j : Key) (pressed : Bool) :
    (s.keyEvent k pressed).key[j] = if j = k then pressed else s.key[j] := by
  simp only [s.keyEvent_keys, Fin.getElem_fin, Vector.getElem_set]
  exact if_congr (Fin.val_inj.trans eq_comm) rfl rfl

/-- A key event that ends no wait changes KEY alone. -/
theorem State.keyEvent_spec_of_no_wait {s : State} (k : Key) {pressed : Bool}
    (h : ¬(pressed = true ∧ s.mode = .waitKey)) :
    (s.keyEvent k pressed).pc = s.pc ∧ Frame [] [.key] [] s (s.keyEvent k pressed) := by
  rcases s.keyEvent_cases k pressed with ⟨hpressed, hm, -⟩ | ⟨-, heq⟩
  · exact absurd ⟨hpressed, hm⟩ h
  · rw [heq]
    exact ⟨rfl, setKeys_frame s _⟩

/-! ## The statements -/

/-- Settles O12: an instruction raises its fault of the table or leaves the latch, and the one fault
that no instruction raises is that of the fetch. -/
theorem faultsAreRaisedExactlyAsTheTableSays :
    Obligations.FaultsAreRaisedExactlyAsTheTableSays :=
  ⟨fun _ _ _ _ => exec_of_fault, fun _ _ _ => exec_latch_of_no_fault,
    fun _ => State.fetchFault_spec, rfl, rfl, rfl, rfl, rfl, rfl, FaultCause.code_ne_six_seven⟩

/-- Settles O46: each timer is counted down once per Tick. -/
theorem ticksCountDownAndStopAtZero : Obligations.TicksCountDownAndStopAtZero := by
  intro k s
  obtain ⟨hdt, hst⟩ := State.tick_iterate_timers k s
  rw [hdt, hst]
  exact ⟨countDown_iterate_toNat k s.dt, countDown_iterate_toNat k s.st⟩

/-- Settles O11: see `raiseFault_frame`. -/
theorem faultEntryChangesTheLatchAlone : Obligations.FaultEntryChangesTheLatchAlone :=
  fun s c w => ⟨rfl, rfl, rfl, rfl, raiseFault_frame s c w⟩

/-- Settles O13: MODE = FAULT holds every Step and is no key wait. -/
theorem onlyResetLeavesFaultMode : Obligations.OnlyResetLeavesFaultMode := by
  intro s hm
  have hrun : s.mode ≠ .run := by simp [hm]
  have hwait : s.mode ≠ .waitKey := by simp [hm]
  exact ⟨s.coreStep_held hrun, ⟨_, rfl, rfl, tick_frame s⟩,
    fun k pressed => ⟨_, rfl, s.keyEvent_key_same k pressed,
      State.keyEvent_spec_of_no_wait k fun h => hwait h.2⟩,
    ⟨rfl, rfl⟩, ⟨_, rfl, rfl, rfl, rfl⟩⟩

/-- Settles O45: both timers are counted down by the same function. -/
theorem tickDecrementsBothTimers : Obligations.TickDecrementsBothTimers :=
  fun s => ⟨s.tick, rfl, countDown_toNat_add_one, fun h => h ▸ countDown_zero,
    countDown_toNat_add_one, fun h => h ▸ countDown_zero, rfl, tick_frame s⟩

/-- Settles O47: the keys are the same in both cases, and the press that ends a wait also completes
its instruction. -/
theorem keyEventsSetTheKeyAndEndTheWait : Obligations.KeyEventsSetTheKeyAndEndTheWait := by
  refine fun s k pressed => ⟨_, rfl, fun j => s.keyEvent_key k j pressed,
    State.keyEvent_spec_of_no_wait k, ?_⟩
  rintro rfl hm
  exact State.keyEvent_press_spec k hm

/-- Settles O49: the outputs are read off the state. -/
theorem outputsShowTheState : Obligations.OutputsShowTheState :=
  fun _ => ⟨decide_eq_true_iff, rfl, fun _ _ => rfl, rfl⟩

end Sys2Proof.Machine

/-! PROOFS, family `70_reset_and_hazards.md`. An instruction answers with a next state, the return
past the stack apart (`exec_enabled`), and with its own state at a self-jump alone
(`exec_eq_self_iff`). A Load is a store of bytes at a fixed address. -/

namespace Sys2Proof.Machine

/-! ## No instruction halts (R202) -/

/-- With SP in its range every instruction gives a next state (R15, R202). -/
theorem exec_enabled (i : Instr) {s : State} (hsp : s.sp.toNat ≤ 16) :
    ∃ t, exec i s = .next t := by
  cases hf : specFault i s with
  | some f => exact ⟨_, exec_of_fault hf⟩
  | none =>
    cases i with
    | call nnn =>
      obtain ⟨_, heq⟩ := exec_call_of_no_fault hf
      exact ⟨_, heq⟩
    | ret =>
      have h0 : s.sp ≠ 0 := fun h0 => by simp [specFault, h0] at hf
      exact ⟨_, exec_ret_of_entry h0 (by bv_omega)⟩
    | _ => exact ⟨_, rfl⟩

/-- Settles O10: a fetch that fails is a fault, which is a next state, and any other Step is one
instruction. -/
theorem stepOfARunningCoreIsAlwaysEnabled : Obligations.StepOfARunningCoreIsAlwaysEnabled := by
  intro s hm hsp
  rcases Nat.lt_or_ge 0xFFE s.pc.toNat with hpc | hpc
  · exact ⟨_, State.coreStep_outOfRange hm hpc⟩
  · obtain ⟨t, ht⟩ := exec_enabled (decodeWord s.fetchWord) (s := s.setStage .running) hsp
    exact ⟨t, (State.coreStep_inRange hm hpc).trans ht⟩

/-! ## Quiescent states (R203) -/

/-- A fault stops the core, so it does not leave a running state as it is. -/
theorem State.raiseFault_ne_self {s : State} (hm : s.mode = .run) (c : FaultCause) (w : Word) :
    s.raiseFault c w ≠ s := by
  intro h
  have hmode := congrArg State.mode h
  simp [hm] at hmode

theorem State.setPc_eq_self {s : State} {w : Word} (h : w = s.pc) : s.setPc w = s := by
  rw [h]
  rfl

/-- The instruction is a jump to the address in PC, of either form (R203). -/
def SelfJump (i : Instr) (s : State) : Prop :=
  (∃ nnn, i = .jp nnn ∧ nnn.toNat = s.pc.toNat) ∨
  (∃ nnn, i = .jpV0 nnn ∧ nnn.toNat + (s.getV 0).toNat = s.pc.toNat)

theorem exec_eq_self_of_selfJump {i : Instr} {s : State} (h : SelfJump i s) :
    exec i s = .next s := by
  rcases h with ⟨nnn, rfl, hpc⟩ | ⟨nnn, rfl, hpc⟩
  · have hw : zextAddr nnn = s.pc := BitVec.eq_of_toNat_eq ((zextAddr_toNat nnn).trans hpc)
    exact congrArg Host.Outcome.next (State.setPc_eq_self hw)
  · have hw : zextAddr nnn + zextByte (s.getV 0) = s.pc :=
      BitVec.eq_of_toNat_eq ((zextAddr_add_zextByte_toNat nnn _).trans hpc)
    exact congrArg Host.Outcome.next (State.setPc_eq_self hw)

/-- Every instruction but the two jumps moves PC on, changes SP, changes MODE, or faults (R203). -/
theorem selfJump_of_exec_eq_self {i : Instr} {s : State} (hm : s.mode = .run)
    (h : exec i s = .next s) : SelfJump i s := by
  have hf : specFault i s = none := by
    rcases exec_cases h with ⟨c, w, -, heq⟩ | ⟨hf, -⟩
    · exact absurd heq.symm (State.raiseFault_ne_self hm c w)
    · exact hf
  obtain ⟨hnext, hlate, hskip, -, hjump, hjumpV0, -⟩ := (pcBehaviourOfEveryRow i s s h).2 hf
  cases i with
  | jp nnn => exact .inl ⟨nnn, rfl, (hjump nnn (.inl rfl)).symm⟩
  | jpV0 nnn => exact .inr ⟨nnn, rfl, (hjumpV0 nnn rfl).symm⟩
  | call nnn =>
    obtain ⟨_, heq⟩ := exec_call_of_no_fault hf
    have hsp := congrArg State.sp (Host.Outcome.next.inj (heq.symm.trans h))
    simp at hsp
  | ret =>
    obtain ⟨-, _, heq⟩ := exec_ret_of_no_fault hf h
    have hsp := congrArg State.sp heq
    simp only [State.setPc_sp, State.setSp_sp] at hsp
    bv_omega
  | ldVxK x =>
    have hmode := congrArg State.mode (Host.Outcome.next.inj h)
    simp [hm] at hmode
  | seImm x kk | sneImm x kk | seReg x y | sneReg x y | skp x | sknp x =>
    simp [Instr.row] at hskip
  | ldDtVx x | ldStVx x | addI x | ldF x | ldB x | stRegs x | ldRegs x | unrec w =>
    simp [Instr.row] at hlate
  | _ => simp [Instr.row] at hnext

/-- A running core's instruction leaves the state as it is exactly when it is a self-jump. -/
theorem exec_eq_self_iff {i : Instr} {s : State} (hm : s.mode = .run) :
    exec i s = .next s ↔ SelfJump i s :=
  ⟨selfJump_of_exec_eq_self hm, exec_eq_self_of_selfJump⟩

/-- Settles O57: a Step whose fetch fails is a fault, and any other is the instruction at PC, at the
state with the boot order ended. -/
theorem quiescentExactlyAtSelfJumps : Obligations.QuiescentExactlyAtSelfJumps := by
  intro s hm
  have hrun : (s.setStage .running).mode = .run := hm
  rw [State.quiescent]
  rcases Nat.lt_or_ge 0xFFE s.pc.toNat with hpc | hpc
  · rw [State.coreStep_outOfRange hm hpc]
    refine iff_of_false (fun h => ?_) (fun h => absurd h.1 (Nat.not_le.2 hpc))
    exact State.raiseFault_ne_self hrun _ _ (Host.Outcome.next.inj h)
  · rw [State.coreStep_inRange hm hpc, exec_eq_self_iff hrun]
    exact (and_iff_right hpc).symm

/-! ## Load (R193) -/

/-- Bytes stored anywhere change the memory at their addresses alone. -/
theorem storeBytes_frame_at (s : State) (a : Nat) (bs : List Byte) :
    Frame [] [] ((List.range bs.length).map (a + ·)) s (s.storeBytes a bs) where
  regs_same r _ := by rw [State.storeBytes_eq, State.setMem_getV]
  parts_same p _ := by
    rw [State.storeBytes_eq]
    cases p <;> rfl
  mem_same p hp := by
    refine s.readByte_storeBytes_outside a p bs (by_contra fun hin => hp ?_)
    exact List.mem_map.2 ⟨p - a, List.mem_range.2 (by omega), by omega⟩

theorem State.load_of_fits {s : State} {image : List Byte} (hfresh : s.stage = .fresh)
    (hlen : image.length ≤ 3584) :
    s.load image = .next ((s.storeBytes 0x200 image).setStage .loaded) := by
  rcases s.load_cases image with ⟨-, -, heq⟩ | ⟨-, hlong, -⟩ | ⟨hnot, -⟩
  · exact heq
  · exact absurd hlen (Nat.not_le.2 hlong)
  · exact absurd hfresh hnot

theorem State.load_of_tooLong {s : State} {image : List Byte} (hfresh : s.stage = .fresh)
    (hlen : 3584 < image.length) : s.load image = .refused .imageTooLong := by
  rcases s.load_cases image with ⟨-, hfits, -⟩ | ⟨-, -, heq⟩ | ⟨hnot, -⟩
  · exact absurd hfits (Nat.not_le.2 hlen)
  · exact heq
  · exact absurd hfresh hnot

/-- Settles O55: an image that fits is stored from 0x200, and ends inside memory. -/
theorem loadCopiesTheImage : Obligations.LoadCopiesTheImage := by
  refine fun s image hfresh => ⟨fun hlen => ?_, State.load_of_tooLong hfresh⟩
  have hspan : 0x200 + image.length ≤ Config.memSize := Nat.add_le_add_left hlen 0x200
  have hframe := (storeBytes_frame_at s 0x200 image).trans (setStage_frame _ .loaded)
  exact ⟨_, State.load_of_fits hfresh hlen,
    fun hwf j hj => s.readByte_storeBytes_inside 0x200 j image hspan hj hwf,
    rfl, s.storeBytes_pc 0x200 image, by simpa using hframe⟩

end Sys2Proof.Machine

/-! PROOFS, family `other`: what of the statements rests on the model's own choices (logs 1, 2, 5, 6
and 7). The count of draws commutes with every instruction but RND; two canonical memories that read
alike list the same first cell; and a Step of a running core ends the boot order. -/

/-! ## The random draws (R121, R174) -/

namespace Sys2Proof.Machine

/-- The state with another count of draws. -/
def State.setDraws (s : State) (d : Nat) : State := { s with draws := d }

theorem State.spriteOf_setDraws (s : State) (d : Nat) (x y : Reg) (n : Nat) :
    (s.setDraws d).spriteOf x y n = s.spriteOf x y n :=
  congrArg _ (State.readBytes_congr (s := s) (t := s.setDraws d) (fun _ => rfl) _ n)

theorem State.storeBytes_setDraws (s : State) (d a : Nat) (bs : List Byte) :
    (s.setDraws d).storeBytes a bs = (s.storeBytes a bs).setDraws d := by
  induction bs generalizing s a with
  | nil => rfl
  | cons b bs ih => exact ih (s.writeByte a b) (a + 1)

theorem State.storeRegs_setDraws (s : State) (d a n : Nat) :
    (s.setDraws d).storeRegs a n = (s.storeRegs a n).setDraws d := by
  induction n with
  | zero => rfl
  | succ n ih =>
    rw [State.storeRegs, State.storeRegs, ih]
    split <;> rfl

theorem State.loadRegs_setDraws (s : State) (d a n : Nat) :
    (s.setDraws d).loadRegs a n = (s.loadRegs a n).setDraws d := by
  induction n with
  | zero => rfl
  | succ n ih =>
    rw [State.loadRegs, State.loadRegs, ih]
    split <;> rfl

/-- The range check of a data access does not concern the count of draws. -/
theorem State.withData_setDraws {s : State} {d : Nat} (len : Nat) {act : State → State}
    (hact : act (s.setDraws d) = (act s).setDraws d) :
    (s.setDraws d).withData len act = (s.withData len act).setDraws d := by
  rcases s.withData_cases len act with ⟨hok, heq⟩ | ⟨hoob, heq⟩
  · rw [heq, ← hact]
    exact State.withData_ok _ len act hok
  · rw [heq]
    exact State.withData_oob _ len act hoob

theorem State.skipOnKey_setDraws (s : State) (d : Nat) (x : Reg) (level : Bool) :
    (s.setDraws d).skipOnKey x level = (s.skipOnKey x level).setDraws d := by
  have hkey : (s.setDraws d).keyAt ((s.setDraws d).getV x) = s.keyAt (s.getV x) := rfl
  rw [State.skipOnKey, State.skipOnKey, hkey]
  cases s.keyAt (s.getV x) <;> rfl

/-- Every instruction but RND does the same with another count of draws (R174). -/
theorem exec_setDraws {i : Instr} {s t : State} (d : Nat) (hi : ∀ x kk, i ≠ .rnd x kk)
    (h : exec i s = .next t) : exec i (s.setDraws d) = .next (t.setDraws d) := by
  cases i with
  | rnd x kk => exact absurd rfl (hi x kk)
  | drw x y n =>
    cases h
    refine congrArg _ (State.withData_setDraws _ ?_)
    rw [State.spriteOf_setDraws]
    rfl
  | ldB x =>
    cases h
    exact congrArg _ (State.withData_setDraws _ (congrArg _ (s.storeBytes_setDraws d _ _)))
  | stRegs x =>
    cases h
    refine congrArg _ (State.withData_setDraws _ ?_)
    exact congrArg (fun u : State => (u.bumpI _).advance) (s.storeRegs_setDraws d _ _)
  | ldRegs x =>
    cases h
    refine congrArg _ (State.withData_setDraws _ ?_)
    exact congrArg (fun u : State => (u.bumpI _).advance) (s.loadRegs_setDraws d _ _)
  | skp x | sknp x =>
    cases h
    exact congrArg _ (s.skipOnKey_setDraws d x _)
  | call nnn =>
    rcases exec_cases h with ⟨c, w, hf, rfl⟩ | ⟨hf, -⟩
    · exact exec_of_fault (s := s.setDraws d) hf
    · obtain ⟨hsp, heq⟩ := exec_call_of_no_fault hf
      cases heq.symm.trans h
      exact exec_call_of_lt (s := s.setDraws d) nnn hsp
  | ret =>
    rcases exec_cases h with ⟨c, w, hf, rfl⟩ | ⟨hf, -⟩
    · exact exec_of_fault (s := s.setDraws d) hf
    · obtain ⟨hsp, hj, rfl⟩ := exec_ret_of_no_fault hf h
      exact exec_ret_of_entry (s := s.setDraws d) hsp hj
  | _ =>
    cases h
    rfl

theorem mem_partsWritten_draws (i : Instr) :
    .draws ∈ partsWritten i ↔ ∃ x kk, i = .rnd x kk := by
  cases i <;> simp [partsWritten]

/-- Settles O29: RND alone has the count of draws among the parts it writes, and every other
instruction commutes with a change of the count. -/
theorem onlyRandomLoadUsesTheDraws : Obligations.OnlyRandomLoadUsesTheDraws := by
  intro i s t d hi h
  have hdraws : .draws ∉ partsWritten i := fun hp => by
    obtain ⟨x, kk, heq⟩ := (mem_partsWritten_draws i).1 hp
    exact hi x kk heq
  exact ⟨exec_part_same h .draws hdraws (by decide), exec_setDraws d hi h⟩

/-- Settles O28: the mask clears in Vx what it clears in the draw, whatever the draw. -/
theorem randomLoadMasksTheDraw : Obligations.RandomLoadMasksTheDraw := by
  refine ⟨fun x kk => decodeWord_encode (i := .rnd x kk) rfl, fun x kk s => ?_⟩
  have hframe : Frame (regsWritten (.rnd x kk)) (partsWritten (.rnd x kk)) [] s _ :=
    exec_frame (i := .rnd x kk) rfl rfl
  have hvx := s.getV_setV_same x (kk &&& Config.randomByte s.draws)
  refine ⟨_, rfl, hvx, fun b hb => ?_, rfl, rfl, hframe⟩
  exact (congrArg (·.getLsbD b) hvx).trans (by rw [BitVec.getLsbD_and, hb, Bool.false_and])

end Sys2Proof.Machine

/-! ## The canonical form of memory (R19, R40; log 5) -/

namespace Sys2Proof.Machine

theorem wfFrom_cons_iff (lo k : Nat) (b : Byte) (m : Memory) :
    Memory.wfFrom lo ((k, b) :: m) = true ↔
      lo ≤ k ∧ k < Config.memSize ∧ b ≠ resetByte k ∧ Memory.wfFrom (k + 1) m = true := by
  simp only [Memory.wfFrom, Bool.and_eq_true, decide_eq_true_eq, and_assoc]

/-- The two memories read alike at every address of the machine. -/
def ReadAlike (m m' : Memory) : Prop := ∀ a, a < Config.memSize → readCell m a = readCell m' a

theorem ReadAlike.symm {m m' : Memory} (h : ReadAlike m m') : ReadAlike m' m :=
  fun a ha => (h a ha).symm

/-- A canonical memory's first cell differs from its reset contents, so that a memory that reads
alike also lists a cell at its address or below. -/
theorem ReadAlike.not_wfFrom_succ {lo k : Nat} {b : Byte} {m m' : Memory}
    (h : ReadAlike ((k, b) :: m) m') (hm : Memory.wfFrom lo ((k, b) :: m) = true) :
    ¬ Memory.wfFrom (k + 1) m' = true := by
  obtain ⟨-, hk, hb, -⟩ := (wfFrom_cons_iff lo k b m).1 hm
  intro hm'
  have hreset : readCell m' k = resetByte k := readCell_below m' (k + 1) k hm' (Nat.lt_succ_self k)
  have hlisted : readCell ((k, b) :: m) k = b := if_pos rfl
  exact hb (hlisted.symm.trans ((h k hk).trans hreset))

/-- Of two canonical memories that read alike, the second's first cell comes no later. -/
theorem ReadAlike.head_le {lo lo' k k' : Nat} {b b' : Byte} {m m' : Memory}
    (h : ReadAlike ((k, b) :: m) ((k', b') :: m')) (hm : Memory.wfFrom lo ((k, b) :: m) = true)
    (hm' : Memory.wfFrom lo' ((k', b') :: m') = true) : k' ≤ k := by
  obtain ⟨-, hrest⟩ := (wfFrom_cons_iff lo' k' b' m').1 hm'
  refine Nat.not_lt.1 fun hlt => h.not_wfFrom_succ hm ?_
  exact (wfFrom_cons_iff _ k' b' m').2 ⟨hlt, hrest⟩

/-- Without their first cells, at one address, two canonical memories still read alike. -/
theorem ReadAlike.tail {k : Nat} {b b' : Byte} {m m' : Memory}
    (h : ReadAlike ((k, b) :: m) ((k, b') :: m')) (hm : Memory.wfFrom (k + 1) m = true)
    (hm' : Memory.wfFrom (k + 1) m' = true) : ReadAlike m m' := by
  intro a ha
  rcases Nat.lt_or_ge k a with hlt | hge
  · simpa [readCell, Nat.ne_of_lt hlt] using h a ha
  · have hbelow : a < k + 1 := Nat.lt_succ_of_le hge
    rw [readCell_below m _ a hm hbelow, readCell_below m' _ a hm' hbelow]

/-- Canonical memories that read alike are equal, from any address on. -/
theorem ReadAlike.eq_of_wfFrom {lo : Nat} {m m' : Memory} (h : ReadAlike m m')
    (hm : Memory.wfFrom lo m = true) (hm' : Memory.wfFrom lo m' = true) : m = m' := by
  induction m generalizing lo m' with
  | nil =>
    cases m' with
    | nil => rfl
    | cons c' m' => exact absurd rfl (h.symm.not_wfFrom_succ hm')
  | cons c m ih =>
    obtain ⟨k, b⟩ := c
    cases m' with
    | nil => exact absurd rfl (h.not_wfFrom_succ hm)
    | cons c' m' =>
      obtain ⟨k', b'⟩ := c'
      obtain rfl : k = k' := Nat.le_antisymm (h.symm.head_le hm' hm) (h.head_le hm hm')
      obtain ⟨-, hk, -, htail⟩ := (wfFrom_cons_iff lo k b m).1 hm
      obtain ⟨-, -, -, htail'⟩ := (wfFrom_cons_iff lo k b' m').1 hm'
      obtain rfl : b = b' := by simpa [readCell] using h k hk
      rw [ih (h.tail htail htail') htail htail']

/-- Settles O37: by induction on the lists, whose first cells must be the same. -/
theorem memoriesThatReadAlikeAreEqual : Obligations.MemoriesThatReadAlikeAreEqual :=
  fun _ _ hm hm' h => ReadAlike.eq_of_wfFrom h hm hm'

end Sys2Proof.Machine

/-! ## The schedule, the stack and the boot order (logs 1, 6 and 7) -/

namespace Sys2Proof.Machine

/-- Settles O9: the two cases of one atomic event. -/
theorem scheduledEventsHappenInOrder : Obligations.ScheduledEventsHappenInOrder := by
  intro s
  rcases step_cases s with ⟨hnil, heq⟩ | ⟨e, rest, hcons, heq⟩
  · exact ⟨fun _ => heq, fun e rest hcons => (nomatch hnil.symm.trans hcons)⟩
  · refine ⟨fun hnil => (nomatch hnil.symm.trans hcons), fun e' rest' hcons' => ?_⟩
    cases hcons.symm.trans hcons'
    exact heq

/-- Settles O18: SP is not 0, and the entry below it is past the 16 of the stack. -/
theorem retBeyondTheStackStops : Obligations.RetBeyondTheStackStops := by
  intro s hsp
  have hne : s.sp ≠ 0 := by bv_omega
  have htop : 16 ≤ (s.sp - 1).toNat := by bv_omega
  simp only [exec, execRet, if_neg hne, State.stackEntry_eq_none s _ htop]

/-- A Step of a running core ends the boot order, whatever the instruction (log 7). -/
theorem State.coreStep_stage_of_run {s t : State} (hm : s.mode = .run)
    (h : s.coreStep = .next t) : t.stage = .running := by
  rcases State.coreStep_cases h with ⟨hheld, -⟩ | ⟨-, -, rfl⟩ | ⟨-, -, hexec⟩
  · exact absurd hm hheld
  · rfl
  · obtain ⟨-, -, -, hstage, -⟩ := not_mem_partsWritten (decodeWord s.fetchWord)
    exact exec_part_same hexec .stage hstage (by decide)

/-- No event but Reset brings a state back to the start of the boot order (log 7). -/
theorem State.apply_stage_ne_fresh {s t : State} {e : Event} (h : s.apply e = .next t)
    (hreset : e ≠ .reset) (hs : s.stage ≠ .fresh) : t.stage ≠ .fresh := by
  by_cases hstep : e = .step
  · subst hstep
    by_cases hm : s.mode = .run
    · simp [State.coreStep_stage_of_run hm h]
    · cases (s.coreStep_held hm).symm.trans h
      exact hs
  · rcases State.apply_host_cases h hstep hreset with ⟨-, rfl⟩ | ⟨k, keys, -, -, rfl⟩ |
      ⟨k, pressed, keys, -, rfl⟩ | ⟨image, mem, -, rfl⟩ | ⟨-, rfl⟩
    · exact hs
    · exact hs
    · exact hs
    · simp
    · exact hs

theorem State.load_of_not_fresh {s : State} (image : List Byte) (h : s.stage ≠ .fresh) :
    s.load image = .refused .loadOutOfOrder :=
  if_pos h

/-- Settles O56: a Load asks for a fresh state, which a running core's Step leaves and only Reset
restores. -/
theorem loadIsRefusedOutOfOrder : Obligations.LoadIsRefusedOutOfOrder :=
  ⟨fun _ image => State.load_of_not_fresh image, fun _ _ => State.coreStep_stage_of_run,
    fun _ _ _ h hs ht => by_contra fun hreset => State.apply_stage_ne_fresh h hreset hs ht⟩

end Sys2Proof.Machine
